-- ==== Sys2Proof/Word.lean ====
section
/-! DEFINITION. The word types of the block: 32-bit event and command words, 8-bit bytes, 16-bit codes
(spec/00_scope.md R3, R11; spec/20_memory.md R50). -/

namespace Sys2Proof

/-- An event word, a command word, or a read value of the read port (R3, R70, R85, R31). -/
abbrev Word := BitVec 32

/-- A byte of the receive buffer, or an 8-bit field of an event word (R50, R81). -/
abbrev Byte := BitVec 8

/-- A 16-bit integrity code, or a 16-bit field of a command word (R14, R86). -/
abbrev Half := BitVec 16

end Sys2Proof
end

