-- ==== Sys2Proof/Config.lean ====
section
/-! DEFINITION. The parameters of the block (spec/00_scope.md R8) and what makes a set of parameters a configuration of
this hardware (R9). Every operation of the machine takes a `Config`, so it is the operation of EVERY configuration; the
machine of `Sys2Proof.Machine.exec` is the one with the defaults of R8 (Machine/Params.lean). The spec leaves no value
free after an event, so there is no opaque constant here. -/

namespace Sys2Proof

/-- The parameters of R8, in the rule's order. All are the spec's own choice or general knowledge, not the document's. -/
structure Params where
  /-- `H`, FRAME_HDR_BYTES: declared frame size = size byte + `H` (R54). -/
  hdrBytes : Nat
  /-- `FRAME_MAX`: bytes in the receive buffer, and the receive length armed. -/
  frameMax : Nat
  /-- `SVC_SIZE_OFF`: offset of the inner service-payload size byte (R57). -/
  svcSizeOff : Nat
  /-- `SVC_MAX`: bound on the inner service-payload size (R136). -/
  svcMax : Nat
  /-- `NEXTGEN_MASK`: the bit of the flags byte that marks a next-generation frame (R56). -/
  nextgenMask : Byte
  /-- `crc16`: the 16-bit integrity function, a total function of its byte list alone (R14). -/
  crc16 : List Byte → Half
  /-- `PROBE_BYTES`: bytes the header check inspects (R113). -/
  probeBytes : Nat
  /-- `WAIT_HIGH_US`: the bounded wait for the line to return high (R103). -/
  waitHighUs : Nat
  /-- `HDR_CHECK_US`: delay of the header check (R105). -/
  hdrCheckUs : Nat
  /-- `RX_PER_BYTE_US`: per-byte budget of the frame timeout (R115). -/
  rxPerByteUs : Nat
  /-- `RX_OVERHEAD_US`: fixed overhead of the frame timeout (R115). -/
  rxOverheadUs : Nat
  /-- `BACKOFF_TARGET_US`: target backoff delay (R161). -/
  backoffTargetUs : Nat
  /-- `JITTER_MASK`: the jitter is `RND & JITTER_MASK` (R161). -/
  jitterMask : Nat
  /-- `BACKOFF_CORR_US`: processing-overhead correction subtracted (R161). -/
  backoffCorrUs : Nat
  /-- `TICK_US`: idle tick period (R160). -/
  tickUs : Nat
  /-- `CNT_BITS`: width of each diagnostics counter (R26). -/
  cntBits : Nat

/-- The constraints of R9, in the rule's order. The two about the backoff are written with sums on both sides, which is
what the rule's differences of integers say, so that no natural-number difference is cut off at 0. -/
def Params.wf (p : Params) : Bool :=
  decide (4 ≤ p.hdrBytes)
  && decide (p.hdrBytes ≤ p.frameMax) && decide (p.frameMax ≤ 255)
  && decide (p.svcSizeOff ≤ p.hdrBytes)
  && decide (p.probeBytes ≤ p.frameMax)
  && decide (p.jitterMask ≤ 0xFF)
  && decide (p.jitterMask / 2 + p.backoffCorrUs + 1 ≤ p.backoffTargetUs)
  && decide (p.backoffTargetUs + p.jitterMask < 2 ^ 24 + p.jitterMask / 2 + p.backoffCorrUs)
  && decide ((255 + p.hdrBytes) * p.rxPerByteUs + p.rxOverheadUs < 2 ^ 24)
  && decide (p.hdrCheckUs < 2 ^ 24)
  && decide (p.tickUs < 2 ^ 24)
  && decide (p.waitHighUs < 2 ^ 16)
  && decide (1 ≤ p.cntBits) && decide (p.cntBits ≤ 32)

/-- A configuration of this hardware: parameters with the proof that they meet R9. A set of parameters that breaks a
constraint is refused (R9): no `Config` can be built from it. -/
structure Config extends Params where
  valid : toParams.wf = true

end Sys2Proof
end

