-- ==== Sys2Proof/Machine/Params.lean ====
section
/-! DEFINITION. The default parameters (spec/00_scope.md R8) and the default integrity function (R14). -/

namespace Sys2Proof.Machine

/-- One of the eight bit steps of the default `crc16` (R14): shift left, and add the polynomial 0x1021 if bit 15 was 1. -/
def crc16Bit (c : Half) : Half := if c.getLsbD 15 then (c <<< 1) ^^^ 0x1021 else c <<< 1

/-- `n` bit steps of the default `crc16`. -/
def crc16Bits : Nat → Half → Half
  | 0, c => c
  | n + 1, c => crc16Bits n (crc16Bit c)

/-- One byte of the default `crc16` (R14): the byte enters at the high end, most significant bit first. -/
def crc16Byte (c : Half) (b : Byte) : Half := crc16Bits 8 (c ^^^ (b.setWidth 16 <<< 8))

/-- CRC-16/CCITT-FALSE, the default `crc16` (R14): initial value 0xFFFF, no reflection, no final XOR. -/
def crc16Ccitt (bs : List Byte) : Half := bs.foldl crc16Byte 0xFFFF

/-- The defaults of R8. -/
def defaultParams : Params :=
  { hdrBytes := 12
    frameMax := 252
    svcSizeOff := 12
    svcMax := 236
    nextgenMask := 0x80
    crc16 := crc16Ccitt
    probeBytes := 8
    waitHighUs := 1000
    hdrCheckUs := 250
    rxPerByteUs := 12
    rxOverheadUs := 60
    backoffTargetUs := 150
    jitterMask := 0x7F
    backoffCorrUs := 40
    tickUs := 10000
    cntBits := 32 }

/-- The configuration `exec` and `step` run: the defaults of R8. -/
def defaultConfig : Config := { toParams := defaultParams, valid := by decide }

end Sys2Proof.Machine
end

