-- ==== Sys2Proof/Syntax.lean ====
section
/-! DEFINITION. The events the block takes, its "instructions" (spec/30_encoding.md R71; one constructor per row of
spec/opcode_table.json), the commands it emits (R86), the continuations its timer can hold (R24) and the causes of a stop
(spec/60_exceptions.md R230). -/

namespace Sys2Proof

/-- An event (R71) with its fields (R72 to R79). A field that is a single bit is a `Bool` (`true` is 1); every other field
is a bit vector of exactly its width (R81), so every term of this type is an event that has a word. -/
inductive Instr where
  /-- `INIT`: initialize/start the physical layer (R72, R210). -/
  | init (rnd : Byte)
  /-- `PKT_READY`: a new outgoing packet has been queued (R73, R165). -/
  | pktReady (rnd : Byte)
  /-- `FALL`: falling edge on the bus line. `w`: the line returned high within the bounded window (R74, R100). -/
  | fall (w : Bool) (rnd : Byte)
  /-- `RXB`: the UART receiver stores the byte `data` at buffer offset `off` (R75, R110). -/
  | rxb (off data : Byte)
  /-- `RXDONE`: hardware reception completion. `e`: an error code was reported; `left`: bytes not yet received; `dacc`:
  the dispatch collaborator accepts the frame if it is forwarded (R76, R130). -/
  | rxdone (e : Bool) (left : Byte) (dacc : Bool) (rnd : Byte)
  /-- `TXDONE`: hardware transmission completion (R77, R176). -/
  | txdone (rnd : Byte)
  /-- `FIRE`: the one-shot timer fires. `pull`: the queue owner has a frame; `stx`: the transmitter started; `fsize` and
  `handle`: the pulled frame's size byte and handle (R78, R200). -/
  | fire (pull stx : Bool) (fsize handle rnd : Byte)
  /-- `RD`: read one register at a 12-bit address (R79, R215). -/
  | rd (addr : BitVec 12)
  deriving DecidableEq, Repr

/-- `TIMER.KIND`: the continuation that runs when the timer fires (R24). The codes 5 to 15 are never written, so they have
no constructor. -/
inductive TimerKind where
  /-- `NONE`: nothing armed. -/
  | none
  /-- `HDR_CHECK`: the header check (R112). -/
  | hdrCheck
  /-- `FRAME_TIMEOUT`: the frame timeout (R114). -/
  | frameTimeout
  /-- `FLUSH`: the flush step (R170). -/
  | flush
  /-- `TICK`: the idle tick (R205). -/
  | tick
  deriving DecidableEq, Repr

/-- The value of `FAULT` (R30, R230). The codes 4 to 7 are reserved and never raised, so they have no constructor. -/
inductive StopCause where
  /-- Code 0: no stop. -/
  | none
  /-- Code 1, `FATAL_RX_OVERLAP`: `FALL` with `RX_ACTIVE = 1` (R101). -/
  | fatalRxOverlap
  /-- Code 2, `FATAL_TICK_DURING_TX`: the `TICK` continuation with `TX_ACTIVE = 1` (R205). -/
  | fatalTickDuringTx
  /-- Code 3, `FATAL_EDGE_DURING_TX`: `FALL` with `TX_ACTIVE = 1` (R101). -/
  | fatalEdgeDuringTx
  /-- Code 8, `ENV_NOT_RUNNING`: any event but `INIT` and `RD` while `RUNNING = 0` (R238). -/
  | envNotRunning
  /-- Code 9, `ENV_REINIT`: `INIT` while `RUNNING = 1` (R210). -/
  | envReinit
  /-- Code 10, `ENV_SPURIOUS_TIMER`: `FIRE` with nothing armed (R200). -/
  | envSpuriousTimer
  /-- Code 11, `ENV_SPURIOUS_RX_DONE`: `RXDONE` with `RX_ACTIVE = 0` (R130). -/
  | envSpuriousRxDone
  /-- Code 12, `ENV_SPURIOUS_TX_DONE`: `TXDONE` with `TX_ACTIVE = 0` (R176). -/
  | envSpuriousTxDone
  /-- Code 13, `ENV_RX_DATA_UNARMED`: `RXB` with `RX_ACTIVE = 0` (R110). -/
  | envRxDataUnarmed
  /-- Code 14, `ENV_BAD_FIELD`: `RXB` with `OFF >= FRAME_MAX`, or `RXDONE` with `LEFT > FRAME_MAX` (R110, R130). -/
  | envBadField
  /-- Code 15, `ILLEGAL_EVENT`: an event word that spells no event (R80). -/
  | illegalEvent
  deriving DecidableEq, Repr

/-- A command the block emits to a collaborator (R86), each field at the width the command word gives it. -/
inductive Command where
  /-- `START_RX(LEN)`: start receive into the buffer. -/
  | startRx (len : Half)
  /-- `FLUSH_RX`: flush pending partially-received bytes. -/
  | flushRx
  /-- `DISABLE_RX`: disable the receiver. -/
  | disableRx
  /-- `WAIT_HIGH(WINDOW_US)`: wait for the line to reach idle level, bounded. -/
  | waitHigh (windowUs : Half)
  /-- `START_TX(HANDLE, N)`: start transmit of `N` bytes of the frame `HANDLE` names. -/
  | startTx (handle : Byte) (n : Half)
  /-- `ARM_TIMER(KIND, DELAY_US)`: schedule the one-shot timer. -/
  | armTimer (kind : TimerKind) (delayUs : BitVec 24)
  /-- `PULL_FRAME`: get the next frame to send. -/
  | pullFrame
  /-- `FRAME_SENT(HANDLE)`: the frame was sent. -/
  | frameSent (handle : Byte)
  /-- `DISPATCH(LEN)`: deliver bytes 0 to `LEN - 1` of the receive buffer. -/
  | dispatch (len : Half)
  /-- `ABORT(CAUSE)`: abort the process. -/
  | abort (cause : StopCause)
  deriving DecidableEq, Repr

end Sys2Proof
end

