-- ==== Sys2Proof/WellFormed.lean ====
section
/-! DEFINITION. Which 32-bit words are legal event words (spec/30_encoding.md R80), written from the match and mask of
each format (R72 to R79; spec/opcode_table.json) and without use of the decoder. The other check of the model, of a
configuration's parameters (R9), is `Params.wf` in Config.lean. An `Instr` needs no check of its own: its fields have
exactly the widths of R81, so an ill-formed one cannot be written. -/

namespace Sys2Proof

/-- The match and mask of an event format. -/
structure Format where
  mnemonic : String
  matchBits : Word
  mask : Word
  deriving DecidableEq, Repr

/-- The eight event formats (R72 to R79). -/
def formats : List Format :=
  [ ⟨"INIT",      0x10000000, 0xFFFFFF00⟩,
    ⟨"PKT_READY", 0x20000000, 0xFFFFFF00⟩,
    ⟨"FALL",      0x30000000, 0xFFFFFE00⟩,
    ⟨"RXB",       0x40000000, 0xFF0000FF⟩,
    ⟨"RXDONE",    0x50000000, 0xFE00FE00⟩,
    ⟨"TXDONE",    0x60000000, 0xFFFFFF00⟩,
    ⟨"FIRE",      0x70000000, 0xF3000000⟩,
    ⟨"RD",        0x80000000, 0xFFFFF000⟩ ]

/-- `w` is a word of the format. -/
def Format.holds (f : Format) (w : Word) : Bool := w &&& f.mask == f.matchBits

/-- `w` spells an event: its opcode is one of the eight and every reserved bit of its format is 0 (R80). -/
def legal (w : Word) : Bool := formats.any (·.holds w)

end Sys2Proof
end

