-- ==== Sys2Proof/Decode.lean ====
section
/-! DEFINITION. The event decoder, total on 32-bit words (spec/30_encoding.md R70 to R81), the event encoder, written from
the same formats, and the words of the block's commands (R86, R87). -/

namespace Sys2Proof

/-- The unsigned field of `n` bits of `w` whose lowest bit is bit `lo`: the spec's `w[lo+n-1:lo]` (R11). -/
def field (w : Word) (lo n : Nat) : BitVec n := w.extractLsb' lo n

/-- One bit of `w`: the spec's `w[i]` (R11). -/
def bit (w : Word) (i : Nat) : Bool := w.getLsbD i

/-- `v` placed in a word with its lowest bit at bit `lo`, every other bit 0: zero-extended and shifted (R11). -/
def place {n : Nat} (v : BitVec n) (lo : Nat) : Word := v.setWidth 32 <<< lo

/-- The event `w` spells, or `none` if `w` is illegal (R80): `OP = ev[31:28]` selects the format (R70, R71), and the
format's reserved bits must be 0 (R72 to R79). -/
def decode (w : Word) : Option Instr :=
  let op := field w 28 4
  if op = 0x1 then
    if field w 8 20 = 0 then some (.init (field w 0 8)) else none
  else if op = 0x2 then
    if field w 8 20 = 0 then some (.pktReady (field w 0 8)) else none
  else if op = 0x3 then
    if field w 9 19 = 0 then some (.fall (bit w 8) (field w 0 8)) else none
  else if op = 0x4 then
    if field w 24 4 = 0 ∧ field w 0 8 = 0 then some (.rxb (field w 16 8) (field w 8 8)) else none
  else if op = 0x5 then
    if field w 25 3 = 0 ∧ field w 9 7 = 0 then
      some (.rxdone (bit w 24) (field w 16 8) (bit w 8) (field w 0 8))
    else none
  else if op = 0x6 then
    if field w 8 20 = 0 then some (.txdone (field w 0 8)) else none
  else if op = 0x7 then
    if field w 24 2 = 0 then
      some (.fire (bit w 27) (bit w 26) (field w 16 8) (field w 8 8) (field w 0 8))
    else none
  else if op = 0x8 then
    if field w 12 16 = 0 then some (.rd (field w 0 12)) else none
  else none

/-- The word of an event: its opcode in bits 31:28 and each field where R72 to R79 put it; the reserved bits are 0. -/
def encode : Instr → Word
  | .init rnd => place 0x1#4 28 ||| place rnd 0
  | .pktReady rnd => place 0x2#4 28 ||| place rnd 0
  | .fall w rnd => place 0x3#4 28 ||| place (BitVec.ofBool w) 8 ||| place rnd 0
  | .rxb off data => place 0x4#4 28 ||| place off 16 ||| place data 8
  | .rxdone e left dacc rnd =>
    place 0x5#4 28 ||| place (BitVec.ofBool e) 24 ||| place left 16 ||| place (BitVec.ofBool dacc) 8 ||| place rnd 0
  | .txdone rnd => place 0x6#4 28 ||| place rnd 0
  | .fire pull stx fsize handle rnd =>
    place 0x7#4 28 ||| place (BitVec.ofBool pull) 27 ||| place (BitVec.ofBool stx) 26 ||| place fsize 16 |||
      place handle 8 ||| place rnd 0
  | .rd addr => place 0x8#4 28 ||| place addr 0

/-- The word of an opcode-table row's instruction: its low `nbits` bits are those of `w`, the bits above are 0. An event is
one word on the input port (R3), so no byte order applies (R58). -/
def decodeTableWord (nbits w : Nat) : Option Instr := decode (BitVec.ofNat 32 (w % 2 ^ nbits))

/-- The code of a continuation in `TIMER.KIND` and in `ARM_TIMER` (R24, R87). -/
def TimerKind.code : TimerKind → BitVec 4
  | .none => 0
  | .hdrCheck => 1
  | .frameTimeout => 2
  | .flush => 3
  | .tick => 4

/-- The code of a cause in `FAULT` and in `ABORT` (R230, R87). -/
def StopCause.code : StopCause → BitVec 4
  | .none => 0
  | .fatalRxOverlap => 1
  | .fatalTickDuringTx => 2
  | .fatalEdgeDuringTx => 3
  | .envNotRunning => 8
  | .envReinit => 9
  | .envSpuriousTimer => 10
  | .envSpuriousRxDone => 11
  | .envSpuriousTxDone => 12
  | .envRxDataUnarmed => 13
  | .envBadField => 14
  | .illegalEvent => 15

/-- The word of a command: `CMD = c[31:28]`, its fields where R86 puts them, unused bits 0 (R85). -/
def Command.word : Command → Word
  | .startRx len => place 0x1#4 28 ||| place len 0
  | .flushRx => place 0x2#4 28
  | .disableRx => place 0x3#4 28
  | .waitHigh windowUs => place 0x4#4 28 ||| place windowUs 0
  | .startTx handle n => place 0x5#4 28 ||| place handle 16 ||| place n 0
  | .armTimer kind delayUs => place 0x6#4 28 ||| place kind.code 24 ||| place delayUs 0
  | .pullFrame => place 0x7#4 28
  | .frameSent handle => place 0x8#4 28 ||| place handle 0
  | .dispatch len => place 0x9#4 28 ||| place len 0
  | .abort cause => place 0xA#4 28 ||| place cause.code 0

/-- `CMD = c[31:28]`: which command a command word is (R85). -/
def commandCode (c : Word) : BitVec 4 := field c 28 4

end Sys2Proof
end

