-- ==== Sys2Proof/Machine/State.lean ====
section
/-! DEFINITION. The state of the block (spec/10_state.md R20), its input and output ports (spec/00_scope.md R3), the state
after reset (spec/70_reset_and_hazards.md R260), and the reasons a step can answer no next state. -/

namespace Sys2Proof.Machine

/-- `STATUS` (R21): 3 bits. Its word is read at address 0x000 (R32). -/
structure Status where
  /-- Bit 0: from the line edge that starts a reception until it is completed or abandoned. -/
  rxActive : Bool
  /-- Bit 1: from the flush step that claims the bus until the transmission completes or is released. -/
  txActive : Bool
  /-- Bit 2: the pending flag. -/
  txQueued : Bool
  deriving DecidableEq, Repr

/-- `TXF`, the claimed transmit-frame reference (R23): 17 bits. -/
structure TxFrame where
  valid : Bool
  handle : Byte
  size : Byte
  deriving DecidableEq, Repr

/-- `TIMER`, the single one-shot timer slot (R24): 28 bits, `KIND` (4) and `DELAY_US` (24). -/
structure Timer where
  kind : TimerKind
  delayUs : BitVec 24
  deriving DecidableEq, Repr

/-- The diagnostics counters and the bus-state placeholder (R26). A counter is `CNT_BITS` wide; as `CNT_BITS <= 32` (R9) it
is held in 32 bits, the bits above `CNT_BITS` 0. -/
structure Diag where
  /-- `DIAG_BUS_LO_ERROR`. -/
  loError : Word
  /-- `DIAG_BUS_TIMEOUT_ERROR`. -/
  timeoutError : Word
  /-- `DIAG_BUS_UART_ERROR`. -/
  uartError : Word
  /-- `DIAG_PACKETS_RECEIVED`. -/
  packetsReceived : Word
  /-- `DIAG_PACKETS_DROPPED`. -/
  packetsDropped : Word
  /-- `DIAG_BUS_STATE`, 8 bits, which no rule writes. -/
  busState : Byte
  deriving DecidableEq, Repr

/-- `RXBUF` (R25, R50): the bytes that are not 0, by address, in the canonical form of `Memory.wf`. -/
abbrev Memory := List Host.Cell

/-- What an address that `Memory` does not list reads as: 0, the reset contents of `RXBUF` (R260) and what the line edge
leaves in it (R102). -/
def Memory.unlisted : Byte := 0

/-- The canonical form of a buffer of `size` bytes: addresses strictly rising and below `size`, and no entry that holds
what an unlisted address reads as. Two buffers with the same bytes are then the same list. -/
def Memory.wf (size : Nat) : Memory → Bool
  | [] => true
  | (a, v) :: rest =>
    decide (a < size) && decide (v ≠ Memory.unlisted) && rest.all (fun cell => decide (a < cell.1)) && Memory.wf size rest

/-- The state of the block: the elements of R20, and the two ports of R3. -/
structure State where
  status : Status
  txf : TxFrame
  timer : Timer
  rxbuf : Memory
  diag : Diag
  /-- `RUNNING` (R29). -/
  running : Bool
  /-- `FAULT` (R30): 4 bits, the code of the cause. -/
  fault : StopCause
  /-- `HALTED` (R30): no further event is taken. -/
  halted : Bool
  /-- The input port (R3): the event words the environment has offered and the block has not taken, the next one first
  (R61). The model's own field: it holds the environment's choice of events. -/
  events : List Word
  /-- The output port (R3, R85): the command words the last event emitted, in order. The model's own field. -/
  out : List Word
  /-- The read-data output (R85): the value the last event returned, if it was an `RD`. The model's own field. -/
  rdata : Option Word
  deriving DecidableEq, Repr

/-- Why the block takes no step. -/
inductive Fault where
  /-- The block is halted (`HALTED = 1`): no event has a step until reset (R233). Raised by every event and by `step`. Safe:
  the spec gives a halted block no step, and a run that reaches one counts as failed. -/
  | halted
  deriving DecidableEq, Repr

/-- Why the model gives an instruction no meaning. -/
inductive Refusal where
  /-- The instruction has no meaning yet. No arm of `exec` raises it. Safe: the model stops where the block goes on. -/
  | notModelled (mnemonic : String)
  deriving DecidableEq, Repr

/-- What an event, or a step, answers. -/
abbrev Result := Host.Outcome State Fault Refusal

/-- The diagnostics recorder after reset (R260). -/
def Diag.reset : Diag :=
  { loError := 0, timeoutError := 0, uartError := 0, packetsReceived := 0, packetsDropped := 0, busState := 0 }

/-- The state after power-on reset (R260): every element of R20 as the rule says, no event offered yet and nothing on the
output port ("Reset emits no command"). -/
def State.reset : State :=
  { status := { rxActive := false, txActive := false, txQueued := false }
    txf := { valid := false, handle := 0, size := 0 }
    timer := { kind := .none, delayUs := 0 }
    rxbuf := []
    diag := Diag.reset
    running := false
    fault := .none
    halted := false
    events := []
    out := []
    rdata := none }

end Sys2Proof.Machine
end

