-- ==== Sys2Proof/Machine/Flags.lean ====
section
/-! DEFINITION. The flags of `STATUS` (spec/10_state.md R21): how the rules set and clear them, the tests the rules make on
them, and the four-state view of R40. -/

namespace Sys2Proof.Machine

/-- The mask of a retime: a subset of `RX_ACTIVE` and `TX_ACTIVE`, never `TX_QUEUED` (R160). -/
structure ClearMask where
  rx : Bool
  tx : Bool
  deriving DecidableEq, Repr

/-- `retime(0)`'s mask. -/
def ClearMask.nothing : ClearMask := { rx := false, tx := false }

/-- `retime(RX_ACTIVE)`'s mask. -/
def ClearMask.rxActive : ClearMask := { rx := true, tx := false }

/-- `retime(TX_ACTIVE)`'s mask. -/
def ClearMask.txActive : ClearMask := { rx := false, tx := true }

/-- `STATUS & ~mask` (R160). -/
def Status.clear (f : Status) (mask : ClearMask) : Status :=
  { rxActive := f.rxActive && !mask.rx, txActive := f.txActive && !mask.tx, txQueued := f.txQueued }

/-- `STATUS = 0`: all three flags clear (R165). -/
def Status.allClear (f : Status) : Bool := !f.rxActive && !f.txActive && !f.txQueued

/-- The 3 bits of `STATUS`: `TX_QUEUED ++ TX_ACTIVE ++ RX_ACTIVE` (R32). -/
def Status.bits (f : Status) : BitVec 3 :=
  BitVec.ofBool f.txQueued ++ BitVec.ofBool f.txActive ++ BitVec.ofBool f.rxActive

/-- The document's four states, a projection of `STATUS` (R40). -/
inductive Phase where
  | idle | rxActive | txQueued | txActive
  deriving DecidableEq, Repr

/-- `phase(STATUS)` (R40). -/
def Status.phase (f : Status) : Phase :=
  if f.rxActive then .rxActive else if f.txActive then .txActive else if f.txQueued then .txQueued else .idle

/-- `STATUS.RX_ACTIVE <- 1` (R102). -/
def State.setRxActive (s : State) : State := { s with status := { s.status with rxActive := true } }

/-- `STATUS.TX_ACTIVE <- 1` (R172). -/
def State.setTxActive (s : State) : State := { s with status := { s.status with txActive := true } }

/-- `STATUS.TX_QUEUED <- b` (R165, R172, R173). -/
def State.setTxQueued (s : State) (b : Bool) : State := { s with status := { s.status with txQueued := b } }

/-- `STATUS <- STATUS & ~mask` (R160). -/
def State.clearFlags (s : State) (mask : ClearMask) : State := { s with status := s.status.clear mask }

end Sys2Proof.Machine
end

