-- ==== Sys2Proof/Machine/Ops.lean ====
section
/-! DEFINITION. The named operations over the state: the receive buffer (spec/20_memory.md R50), the output port
(spec/30_encoding.md R85), the timer slot (spec/43_tick_control_diag.md R201, R202), the counters (spec/10_state.md R26),
and TAKING A STOP (spec/60_exceptions.md R231, R235), with the checks every event begins with (R238). There is no return
from a stop (R244): only reset leaves it. -/

namespace Sys2Proof.Machine

/-- `MemRead(a, 1)` (R50). -/
def Memory.read : Memory → Nat → Byte
  | [], _ => Memory.unlisted
  | (b, v) :: rest, a => if a = b then v else Memory.read rest a

/-- `MemWrite(a, 1, v)` (R50), keeping the canonical form: writing what an unlisted address reads as leaves no entry. -/
def Memory.write : Memory → Nat → Byte → Memory
  | [], a, v => if v = Memory.unlisted then [] else [(a, v)]
  | (b, w) :: rest, a, v =>
    if a < b then
      if v = Memory.unlisted then (b, w) :: rest else (a, v) :: (b, w) :: rest
    else if a = b then
      if v = Memory.unlisted then rest else (a, v) :: rest
    else (b, w) :: Memory.write rest a v

/-- The buffer with every byte 0 (R102). -/
def Memory.zeroed : Memory := []

/-- `emit(CMD(args))`: append one command word to this event's output list (R12, R85). -/
def State.emit (s : State) (cmd : Command) : State := { s with out := s.out ++ [cmd.word] }

/-- `arm(kind, d)`: the timer slot takes the new request, whatever it held, and `ARM_TIMER` is emitted (R201). `d < 2^24`
by R9. -/
def State.arm (s : State) (kind : TimerKind) (d : Nat) : State :=
  { s with timer := { kind := kind, delayUs := BitVec.ofNat 24 d } }.emit (.armTimer kind (BitVec.ofNat 24 d))

/-- `TIMER <- (NONE, 0)`: a fire consumes the slot (R202). -/
def State.emptyTimer (s : State) : State := { s with timer := { kind := .none, delayUs := 0 } }

/-- `inc(c)`: `c <- (c + 1) mod 2^CNT_BITS` (R26). -/
def inc (c : Config) (n : Word) : Word := BitVec.ofNat 32 ((n.toNat + 1) % 2 ^ c.cntBits)

/-- `inc(DIAG_BUS_LO_ERROR)` (R173). -/
def State.countLoError (s : State) (c : Config) : State :=
  { s with diag := { s.diag with loError := inc c s.diag.loError } }

/-- `inc(DIAG_BUS_TIMEOUT_ERROR)` (R104). -/
def State.countTimeout (s : State) (c : Config) : State :=
  { s with diag := { s.diag with timeoutError := inc c s.diag.timeoutError } }

/-- `inc(DIAG_BUS_UART_ERROR)` (R133). -/
def State.countUartError (s : State) (c : Config) : State :=
  { s with diag := { s.diag with uartError := inc c s.diag.uartError } }

/-- `inc(DIAG_PACKETS_RECEIVED)` (R138). -/
def State.countReceived (s : State) (c : Config) : State :=
  { s with diag := { s.diag with packetsReceived := inc c s.diag.packetsReceived } }

/-- `inc(DIAG_PACKETS_DROPPED)` (R137, R139). -/
def State.countDropped (s : State) (c : Config) : State :=
  { s with diag := { s.diag with packetsDropped := inc c s.diag.packetsDropped } }

/-- The state after a stop: `FAULT <- cause`, `HALTED <- 1`, the event's whole output is `cmds`, and nothing else changes
(R13, R243). -/
def State.stopped (s : State) (cause : StopCause) (cmds : List Command) : State :=
  { s with fault := cause, halted := true, out := cmds.map Command.word, rdata := none }

/-- Taking a stop, the one operation all three kinds share (R231, R235). -/
def stop (cause : StopCause) (cmds : List Command) (s : State) : Result := .next (s.stopped cause cmds)

/-- `raise Fatal(cause)`: `ABORT(cause)` is the only command of the event (R231). -/
def raiseFatal (cause : StopCause) (s : State) : Result := stop cause [.abort cause] s

/-- `raise EnvFault(code)`: nothing is emitted (R235). -/
def raiseEnvFault (cause : StopCause) (s : State) : Result := stop cause [] s

/-- `raise IllegalEvent()`: the decoder's verdict on a word that spells no event (R80, R235). -/
def raiseIllegalEvent (s : State) : Result := stop .illegalEvent [] s

/-- An event begins with nothing emitted and no read value (R85: the list and the value are the event's own). -/
def State.beginEvent (s : State) : State := { s with out := [], rdata := none }

/-- Check 1 of R238: a halted block has no step (R233); otherwise the event begins. -/
def takeEvent (s : State) (run : State → Result) : Result :=
  if s.halted then .fault .halted else run s.beginEvent

/-- Checks 1 and 5 of R238, which every event but `RD` and `INIT` begins with: `EnvFault(8)` while `RUNNING = 0`. -/
def takeRunningEvent (s : State) (run : State → Result) : Result :=
  takeEvent s fun s0 => if s0.running then run s0 else raiseEnvFault .envNotRunning s0

end Sys2Proof.Machine
end

