-- ==== Sys2Proof/Machine/Operands.lean ====
section
/-! DEFINITION. The operands the rules compute: the fields of a frame in the receive buffer (spec/20_memory.md R52 to R57),
the delays the block asks for (spec/40_line_monitor.md R115; spec/42_transmit_scheduler.md R161), the transmit length
(R172) and the verdict on a completed reception (spec/41_frame_receiver.md R130). -/

namespace Sys2Proof.Machine

/-- The size byte, `MemRead(2, 1)` (R53). -/
def sizeByte (m : Memory) : Byte := m.read 2

/-- The declared frame size, `decl = MemRead(2, 1) + H` (R54). -/
def declaredSize (c : Config) (m : Memory) : Nat := (sizeByte m).toNat + c.hdrBytes

/-- The bytes at offsets `lo` to `hi - 1`. -/
def frameBytes (m : Memory) (lo hi : Nat) : List Byte := (List.range (hi - lo)).map fun k => m.read (lo + k)

/-- The computed integrity code: `crc16` of bytes 2 to `decl - 1` (R55). -/
def computedCode (c : Config) (m : Memory) : Half := c.crc16 (frameBytes m 2 (declaredSize c m))

/-- The embedded integrity code: bytes 0 and 1, little-endian (R55, R58). -/
def embeddedCode (m : Memory) : Half := m.read 1 ++ m.read 0

/-- The flags byte marks a next-generation frame (R56). -/
def nextGeneration (c : Config) (m : Memory) : Bool := m.read 3 &&& c.nextgenMask != 0

/-- The inner service-payload size, `MemRead(SVC_SIZE_OFF, 1)` (R57). -/
def serviceSize (c : Config) (m : Memory) : Byte := m.read c.svcSizeOff

/-- `header_present()`: some byte of the first `PROBE_BYTES` is not 0 (R113). -/
def headerPresent (c : Config) (m : Memory) : Bool := (frameBytes m 0 c.probeBytes).any (· != 0)

/-- The delay of the frame timeout (R115). -/
def frameTimeoutUs (c : Config) (m : Memory) : Nat := declaredSize c m * c.rxPerByteUs + c.rxOverheadUs

/-- `backoff(RND)` (R161). By R9 no difference is cut off at 0. -/
def backoff (c : Config) (rnd : Byte) : Nat :=
  c.backoffTargetUs - c.jitterMask / 2 + (rnd.toNat &&& c.jitterMask) - c.backoffCorrUs

/-- `TXF.SIZE + H`, the bytes the transmitter is asked to send (R172). -/
def transmitLength (c : Config) (f : TxFrame) : Nat := f.size.toNat + c.hdrBytes

/-- The received count, `FRAME_MAX - LEFT` (R134). -/
def receivedCount (c : Config) (left : Byte) : Nat := c.frameMax - left.toNat

/-- What becomes of a completed reception (R140: exactly one of these). -/
inductive Verdict where
  /-- Size byte 0: a silent return (R132). -/
  | silent
  /-- One of the checks (a) to (d) failed: counted, not forwarded (R133 to R136). -/
  | frameError
  /-- The next-generation flag is set: counted as a drop (R137). -/
  | nextGenDrop
  /-- Forwarded, with the declared size (R138). -/
  | forward (decl : Nat)
  deriving DecidableEq, Repr

/-- The validation chain of R130, in its order: the zero size (R132), checks (a) hardware error, (b) length, (c) integrity,
(d) bounds (R133 to R136), and the next-generation drop (R137). -/
def verdict (c : Config) (e : Bool) (left : Byte) (m : Memory) : Verdict :=
  let decl := declaredSize c m
  if sizeByte m = 0 then .silent
  else if e then .frameError
  else if receivedCount c left < decl then .frameError
  else if computedCode c m ≠ embeddedCode m then .frameError
  else if decl > c.frameMax ∨ (serviceSize c m).toNat > c.svcMax then .frameError
  else if nextGeneration c m then .nextGenDrop
  else .forward decl

end Sys2Proof.Machine
end

