-- ==== Sys2Proof/Machine/Retime.lean ====
section
/-! DEFINITION. The shared decision step and the two paths that end in it: `retime` (spec/42_transmit_scheduler.md R160),
`tx_done` (R175) and the reception-abandon path `rx_timeout` (spec/40_line_monitor.md R104). -/

namespace Sys2Proof.Machine

/-- `retime(mask)` (R160): clear the masked flags, then wait for a reception, or arm `FLUSH` for a pending transmission on
a bus that is not transmitting, or arm the idle tick. `rnd` is the event's random draw (R82). -/
def State.retime (s : State) (c : Config) (mask : ClearMask) (rnd : Byte) : State :=
  let s1 := s.clearFlags mask
  if s1.status.rxActive then s1
  else if s1.status.txQueued && !s1.status.txActive then s1.arm .flush (backoff c rnd)
  else s1.arm .tick c.tickUs

/-- `tx_done()` (R175). -/
def State.txDone (s : State) (c : Config) (rnd : Byte) : State := s.retime c .txActive rnd

/-- `rx_timeout()` (R104). -/
def State.rxTimeout (s : State) (c : Config) (rnd : Byte) : State :=
  ((s.countTimeout c).emit .disableRx).retime c .rxActive rnd

end Sys2Proof.Machine
end

