-- ==== Sys2Proof/Machine/FrameReceiver.lean ====
section
/-! DEFINITION. The frame receiver (spec/41_frame_receiver.md): the completion of a reception. -/

namespace Sys2Proof.Machine

/-- What the block does with a verdict (R132 to R139): nothing, one counter, or a received packet that is dispatched and,
if the dispatch collaborator rejects it, also counted as dropped. -/
def settleVerdict (c : Config) (dacc : Bool) (v : Verdict) (s : State) : State :=
  match v with
  | .silent => s
  | .frameError => s.countUartError c
  | .nextGenDrop => s.countDropped c
  | .forward decl =>
    let s1 := (s.countReceived c).emit (.dispatch (BitVec.ofNat 16 decl))
    if dacc then s1 else s1.countDropped c

/-- The effect of a reception completion (R130): the retime that clears `RX_ACTIVE` first, always (R131), then the
validation of the buffer. -/
def rxdoneEffect (c : Config) (e : Bool) (left : Byte) (dacc : Bool) (rnd : Byte) (s : State) : State :=
  let s1 := s.retime c .rxActive rnd
  settleVerdict c dacc (verdict c e left s1.rxbuf) s1

/-- `RXDONE` (R130). -/
def rxdoneEvent (c : Config) (e : Bool) (left : Byte) (dacc : Bool) (rnd : Byte) (s : State) : Result :=
  takeRunningEvent s fun s0 =>
    if !s0.status.rxActive then raiseEnvFault .envSpuriousRxDone s0
    else if c.frameMax < left.toNat then raiseEnvFault .envBadField s0
    else .next (rxdoneEffect c e left dacc rnd s0)

/-- The meaning of `RXDONE`. -/
def execRxdone (e : Bool) (left : Byte) (dacc : Bool) (rnd : Byte) (s : State) : Result :=
  rxdoneEvent defaultConfig e left dacc rnd s

end Sys2Proof.Machine
end

