-- ==== Sys2Proof/Machine/ReadPort.lean ====
section
/-! DEFINITION. The read port (spec/10_state.md R31 to R39) and the register read (spec/43_tick_control_diag.md R215). -/

namespace Sys2Proof.Machine

/-- `STATUS` as read: bits 31:3 are 0 (R32). -/
def statusWord (s : State) : Word := place s.status.bits 0

/-- `PHY_STATE` as read: bit 0 `RUNNING`, bit 1 `BUSY`, which is `STATUS != 0` (R33). -/
def phyStateWord (s : State) : Word :=
  place (BitVec.ofBool (!s.status.allClear)) 1 ||| place (BitVec.ofBool s.running) 0

/-- `TXFRAME` as read: `VALID` in bit 31, `SIZE` in 15:8, `HANDLE` in 7:0; 0 in full when no frame is claimed (R34). -/
def txFrameWord (s : State) : Word :=
  if s.txf.valid then place 1#1 31 ||| place s.txf.size 8 ||| place s.txf.handle 0 else 0

/-- `TIMERSLOT` as read: `KIND` in 31:28, `DELAY_US` in 23:0 (R35). -/
def timerSlotWord (s : State) : Word := place s.timer.kind.code 28 ||| place s.timer.delayUs 0

/-- `regmap(ADDR)` (R31, R36, R37); an address the map does not list reads 0 (R38). -/
def regmap (c : Config) (addr : BitVec 12) (s : State) : Word :=
  if addr = 0x000 then statusWord s
  else if addr = 0x001 then phyStateWord s
  else if addr = 0x002 then txFrameWord s
  else if addr = 0x003 then timerSlotWord s
  else if addr = 0x010 then s.diag.loError
  else if addr = 0x011 then s.diag.timeoutError
  else if addr = 0x012 then s.diag.uartError
  else if addr = 0x013 then s.diag.packetsReceived
  else if addr = 0x014 then s.diag.packetsDropped
  else if addr = 0x015 then place s.diag.busState 0
  else if 0x100 ≤ addr.toNat ∧ addr.toNat < 0x100 + c.frameMax then place (s.rxbuf.read (addr.toNat - 0x100)) 0
  else 0

/-- `RD` (R215): the value goes to the read-data output, and nothing else happens. It is taken before `INIT` too (check 3
of R238). -/
def rdEvent (c : Config) (addr : BitVec 12) (s : State) : Result :=
  takeEvent s fun s0 => .next { s0 with rdata := some (regmap c addr s0) }

/-- The meaning of `RD`. -/
def execRd (addr : BitVec 12) (s : State) : Result := rdEvent defaultConfig addr s

end Sys2Proof.Machine
end

