-- ==== Sys2Proof/Machine/LineMonitor.lean ====
section
/-! DEFINITION. The line monitor (spec/40_line_monitor.md): the falling edge, the UART's byte stores, and the two
continuations that supervise a reception. -/

namespace Sys2Proof.Machine

/-- The effect of a falling edge on an idle bus (R100, R102 to R105): acquire the buffer and arm the receiver, wait for the
line, then arm the header check, or abandon the reception if the line stayed low. -/
def fallEffect (c : Config) (w : Bool) (rnd : Byte) (s : State) : State :=
  let s1 := { s.setRxActive with rxbuf := Memory.zeroed }
  let s2 := (s1.emit (.startRx (BitVec.ofNat 16 c.frameMax))).emit (.waitHigh (BitVec.ofNat 16 c.waitHighUs))
  if w then s2.arm .hdrCheck c.hdrCheckUs else s2.rxTimeout c rnd

/-- `FALL` (R100): the overlap checks of R101, `RX_ACTIVE` first, then the effect. -/
def fallEvent (c : Config) (w : Bool) (rnd : Byte) (s : State) : Result :=
  takeRunningEvent s fun s0 =>
    if s0.status.rxActive then raiseFatal .fatalRxOverlap s0
    else if s0.status.txActive then raiseFatal .fatalEdgeDuringTx s0
    else .next (fallEffect c w rnd s0)

/-- `RXB` (R110): one byte into the buffer, while a reception is armed and inside the buffer. -/
def rxbEvent (c : Config) (off data : Byte) (s : State) : Result :=
  takeRunningEvent s fun s0 =>
    if !s0.status.rxActive then raiseEnvFault .envRxDataUnarmed s0
    else if c.frameMax ≤ off.toNat then raiseEnvFault .envBadField s0
    else .next { s0 with rxbuf := s0.rxbuf.write off.toNat data }

/-- The `HDR_CHECK` continuation (R112). -/
def hdrCheck (c : Config) (rnd : Byte) (s : State) : State :=
  if !s.status.rxActive then s
  else
    let s1 := s.emit .flushRx
    if headerPresent c s1.rxbuf then s1.arm .frameTimeout (frameTimeoutUs c s1.rxbuf)
    else s1.rxTimeout c rnd

/-- The `FRAME_TIMEOUT` continuation (R114). -/
def frameTimeout (c : Config) (rnd : Byte) (s : State) : State :=
  if !s.status.rxActive then s else s.rxTimeout c rnd

/-- The meaning of `FALL`. -/
def execFall (w : Bool) (rnd : Byte) (s : State) : Result := fallEvent defaultConfig w rnd s

/-- The meaning of `RXB`. -/
def execRxb (off data : Byte) (s : State) : Result := rxbEvent defaultConfig off data s

end Sys2Proof.Machine
end

