-- ==== Sys2Proof/Machine/Transmit.lean ====
section
/-! DEFINITION. The transmit scheduler (spec/42_transmit_scheduler.md): packet ready, the flush continuation, and the
completion of a transmission. -/

namespace Sys2Proof.Machine

/-- The effect of a packet-ready signal (R165): the pending flag is set, and an entirely idle block (`STATUS = 0` before the
set) runs a retime. -/
def pktReadyEffect (c : Config) (rnd : Byte) (s : State) : State :=
  let s1 := s.setTxQueued true
  if s.status.allClear then s1.retime c .nothing rnd else s1

/-- `PKT_READY` (R165). -/
def pktReadyEvent (c : Config) (rnd : Byte) (s : State) : Result :=
  takeRunningEvent s fun s0 => .next (pktReadyEffect c rnd s0)

/-- The start of the claimed frame's transmission (R172), and what a lost start race does: count it, mark the transmission
pending again, release `TX_ACTIVE`, in this order (R173). The frame stays claimed. -/
def startTransmit (c : Config) (stx : Bool) (rnd : Byte) (s : State) : State :=
  let s1 := s.emit (.startTx s.txf.handle (BitVec.ofNat 16 (transmitLength c s.txf)))
  if stx then s1 else ((s1.countLoError c).setTxQueued true).txDone c rnd

/-- The `FLUSH` continuation (R170): defer on a busy bus (R171); else claim the bus, pull a frame unless one is already
claimed, and start it (R172). -/
def flush (c : Config) (pull stx : Bool) (fsize handle rnd : Byte) (s : State) : State :=
  if s.status.rxActive || s.status.txActive then s
  else
    let s1 := s.setTxActive.setTxQueued false
    if s1.txf.valid then startTransmit c stx rnd s1
    else
      let s2 := s1.emit .pullFrame
      if pull then startTransmit c stx rnd { s2 with txf := { valid := true, handle := handle, size := fsize } }
      else s2.txDone c rnd

/-- The effect of a transmission completion (R176): the frame goes back to its owner and the bus is released. -/
def txdoneEffect (c : Config) (rnd : Byte) (s : State) : State :=
  { s.emit (.frameSent s.txf.handle) with txf := { valid := false, handle := 0, size := 0 } }.txDone c rnd

/-- `TXDONE` (R176). -/
def txdoneEvent (c : Config) (rnd : Byte) (s : State) : Result :=
  takeRunningEvent s fun s0 =>
    if !s0.status.txActive then raiseEnvFault .envSpuriousTxDone s0 else .next (txdoneEffect c rnd s0)

/-- The meaning of `PKT_READY`. -/
def execPktReady (rnd : Byte) (s : State) : Result := pktReadyEvent defaultConfig rnd s

/-- The meaning of `TXDONE`. -/
def execTxdone (rnd : Byte) (s : State) : Result := txdoneEvent defaultConfig rnd s

end Sys2Proof.Machine
end

