-- ==== Sys2Proof/Machine/TimerControl.lean ====
section
/-! DEFINITION. The timer coordinator and control (spec/43_tick_control_diag.md): the timer fire, the idle tick, and
initialize/start. -/

namespace Sys2Proof.Machine

/-- The effect of a fire that runs the continuation `kind` (R200): the slot is emptied first (R202). -/
def fireEffect (c : Config) (kind : TimerKind) (pull stx : Bool) (fsize handle rnd : Byte) (s : State) : State :=
  let s1 := s.emptyTimer
  match kind with
  | .none => s1
  | .hdrCheck => hdrCheck c rnd s1
  | .frameTimeout => frameTimeout c rnd s1
  | .flush => flush c pull stx fsize handle rnd s1
  | .tick => s1.retime c .nothing rnd

/-- `FIRE` (R200). The fatal check of the `TICK` continuation (R205) stands before the slot is emptied, because a stop
changes nothing but `FAULT` and `HALTED` (R13, R231, R243); assumption log 3. -/
def fireEvent (c : Config) (pull stx : Bool) (fsize handle rnd : Byte) (s : State) : Result :=
  takeRunningEvent s fun s0 =>
    if s0.timer.kind = .none then raiseEnvFault .envSpuriousTimer s0
    else if s0.timer.kind = .tick ∧ s0.status.txActive = true then raiseFatal .fatalTickDuringTx s0
    else .next (fireEffect c s0.timer.kind pull stx fsize handle rnd s0)

/-- The effect of the first `INIT` (R210). -/
def initEffect (c : Config) (rnd : Byte) (s : State) : State := { s with running := true }.retime c .nothing rnd

/-- `INIT` (R210): taken while `RUNNING = 0`, refused as `EnvFault(9)` after that (check 4 of R238). -/
def initEvent (c : Config) (rnd : Byte) (s : State) : Result :=
  takeEvent s fun s0 => if s0.running then raiseEnvFault .envReinit s0 else .next (initEffect c rnd s0)

/-- The meaning of `FIRE`. -/
def execFire (pull stx : Bool) (fsize handle rnd : Byte) (s : State) : Result :=
  fireEvent defaultConfig pull stx fsize handle rnd s

/-- The meaning of `INIT`. -/
def execInit (rnd : Byte) (s : State) : Result := initEvent defaultConfig rnd s

end Sys2Proof.Machine
end

