-- ==== Sys2Proof/Machine/Dispatch.lean ====
section
/-! DEFINITION. What each event does: one arm per row of spec/opcode_table.json. -/

namespace Sys2Proof.Machine

def exec (i : Instr) (s : State) : Host.Outcome State Fault Refusal :=
  match i with
  | .init rnd => Sys2Proof.Machine.execInit rnd s
  | .pktReady rnd => Sys2Proof.Machine.execPktReady rnd s
  | .fall w rnd => Sys2Proof.Machine.execFall w rnd s
  | .rxb off data => Sys2Proof.Machine.execRxb off data s
  | .rxdone e left dacc rnd => Sys2Proof.Machine.execRxdone e left dacc rnd s
  | .txdone rnd => Sys2Proof.Machine.execTxdone rnd s
  | .fire pull stx fsize handle rnd => Sys2Proof.Machine.execFire pull stx fsize handle rnd s
  | .rd addr => Sys2Proof.Machine.execRd addr s

end Sys2Proof.Machine
end

