-- ==== Sys2Proof/Machine/Fetch.lean ====
section
/-! DEFINITION. How the block takes the next event from its input port: one event at a time, in the order the environment
delivers them (spec/20_memory.md R61), decoded before any check of state other than `HALTED` (spec/30_encoding.md R83). -/

namespace Sys2Proof.Machine

/-- One step of a block whose events do what `run` says: no step when halted (R233); nothing to do when no event is offered
(R261: "it waits for events"); else the next word is taken from the port, decoded, and run, or raises `IllegalEvent`
(R80). -/
def takeNext (run : Instr → State → Result) (s : State) : Result :=
  if s.halted then .fault .halted
  else match s.events with
    | [] => .next s
    | w :: rest =>
      match decode w with
      | some i => run i { s with events := rest }
      | none => raiseIllegalEvent { s with events := rest }

/-- The environment offers one more event, to be taken before those already offered. -/
def State.offer (s : State) (w : Word) : State := { s with events := w :: s.events }

end Sys2Proof.Machine
end

