-- ==== Sys2Proof/Machine/Step.lean ====
section
/-! DEFINITION. One step of the machine: one event, taken whole (spec/70_reset_and_hazards.md R265). -/

namespace Sys2Proof.Machine

/-- One step: take the next event from the input port and run it (R61, R238). -/
def step (s : State) : Host.Outcome State Fault Refusal := takeNext exec s

/-- `s` with the event whose low `nbits` bits are those of `w`, the bits above 0, offered as the next event. The block has
no program memory (R27): an event reaches it from the environment (assumption log 2). -/
def State.withFetchWord (s : State) (nbits w : Nat) : State := s.offer (BitVec.ofNat 32 (w % 2 ^ nbits))

end Sys2Proof.Machine
end

