-- ==== Sys2Proof/Machine/Generic.lean ====
section
/-! DEFINITION. The machine of ANY configuration (spec/00_scope.md R8: "A model takes the parameters below as arguments").
`exec` and `step` are `eventOf defaultConfig` and `stepOf defaultConfig` (Laws/Events.lean proves it). -/

namespace Sys2Proof.Machine

/-- What an event does under the configuration `c`. -/
def eventOf (c : Config) (i : Instr) (s : State) : Result :=
  match i with
  | .init rnd => initEvent c rnd s
  | .pktReady rnd => pktReadyEvent c rnd s
  | .fall w rnd => fallEvent c w rnd s
  | .rxb off data => rxbEvent c off data s
  | .rxdone e left dacc rnd => rxdoneEvent c e left dacc rnd s
  | .txdone rnd => txdoneEvent c rnd s
  | .fire pull stx fsize handle rnd => fireEvent c pull stx fsize handle rnd s
  | .rd addr => rdEvent c addr s

/-- One step under the configuration `c`. -/
def stepOf (c : Config) (s : State) : Result := takeNext (eventOf c) s

end Sys2Proof.Machine
end

