-- ==== Sys2Proof/Safety.lean ====
section
/-! DEFINITION. The terms the statements use: the environment contract and the causes of a stop (spec/60_exceptions.md
R230, R236, R238), the invariant of the block (spec/10_state.md R41), and views of an event's output. Nothing here is part
of the machine. -/

namespace Sys2Proof.Machine

/-- The cause the event `i` stops the block with, in the order of checks 3 to 6 of R238, or `none` if it is performed. -/
def firstCause (c : Config) (i : Instr) (s : State) : Option StopCause :=
  match i with
  | .rd _ => none
  | .init _ => if s.running then some .envReinit else none
  | .pktReady _ => if !s.running then some .envNotRunning else none
  | .fall _ _ =>
    if !s.running then some .envNotRunning
    else if s.status.rxActive then some .fatalRxOverlap
    else if s.status.txActive then some .fatalEdgeDuringTx
    else none
  | .rxb off _ =>
    if !s.running then some .envNotRunning
    else if !s.status.rxActive then some .envRxDataUnarmed
    else if c.frameMax ≤ off.toNat then some .envBadField
    else none
  | .rxdone _ left _ _ =>
    if !s.running then some .envNotRunning
    else if !s.status.rxActive then some .envSpuriousRxDone
    else if c.frameMax < left.toNat then some .envBadField
    else none
  | .txdone _ =>
    if !s.running then some .envNotRunning
    else if !s.status.txActive then some .envSpuriousTxDone
    else none
  | .fire .. =>
    if !s.running then some .envNotRunning
    else if s.timer.kind = .none then some .envSpuriousTimer
    else if s.timer.kind = .tick && s.status.txActive then some .fatalTickDuringTx
    else none

/-- The cause is one of the fatal ones, which emit `ABORT` (R230, R231). -/
def isFatal : StopCause → Bool
  | .fatalRxOverlap | .fatalTickDuringTx | .fatalEdgeDuringTx => true
  | _ => false

/-- The event keeps what the block can see, in the state `s`, of items 1 to 5 and 7 of the environment contract (R236). Of item
2 it sees only whether anything is armed: a `FIRE` for a superseded request is seen as the fire of the one that is armed
(R268). Item 6 is about words, and the block does not detect a breach of items 8 to 13. -/
def keepsContract (c : Config) (i : Instr) (s : State) : Bool :=
  match i with
  | .init _ => !s.running
  | .rd _ => true
  | .pktReady _ => s.running
  | .fall _ _ => s.running && !s.status.rxActive && !s.status.txActive
  | .rxb off _ => s.running && s.status.rxActive && decide (off.toNat < c.frameMax)
  | .rxdone _ left _ _ => s.running && s.status.rxActive && decide (left.toNat ≤ c.frameMax)
  | .txdone _ => s.running && s.status.txActive
  | .fire .. => s.running && decide (s.timer.kind ≠ .none)

/-- The invariant of the block: the six items of R41, the form of each element (R20, R26, R35, R50), and what `HALTED` and
`FAULT` say of each other (R30). -/
structure Inv (c : Config) (s : State) : Prop where
  /-- R41 item 1. -/
  notBoth : ¬ (s.status.rxActive = true ∧ s.status.txActive = true)
  /-- R41 item 2. -/
  beforeInit : s.running = false → s.status.allClear = true ∧ s.txf.valid = false ∧ s.timer.kind = .none
  /-- R41 item 3. -/
  receiving : s.status.rxActive = true → s.timer.kind = .hdrCheck ∨ s.timer.kind = .frameTimeout
  /-- R41 item 4. -/
  transmitting : s.status.txActive = true → s.txf.valid = true ∧ s.timer.kind = .none
  /-- R41 item 5. -/
  waiting : s.running = true → s.status.rxActive = false → s.status.txActive = false →
    s.timer.kind = if s.status.txQueued then .flush else .tick
  /-- R41 item 6. -/
  claimed : s.txf.valid = true → s.status.txActive = true ∨ s.status.txQueued = true
  /-- No frame claimed: the reference is (0, 0, 0) (R176, R260). -/
  unclaimed : s.txf.valid = false → s.txf.handle = 0 ∧ s.txf.size = 0
  /-- An empty timer slot has delay 0 (R35). -/
  emptySlot : s.timer.kind = .none → s.timer.delayUs = 0
  /-- `RXBUF` has `FRAME_MAX` bytes and is in canonical form (R50). -/
  buffer : Memory.wf c.frameMax s.rxbuf = true
  /-- Each counter fits `CNT_BITS` (R26). -/
  counters : s.diag.loError.toNat < 2 ^ c.cntBits ∧ s.diag.timeoutError.toNat < 2 ^ c.cntBits ∧
    s.diag.uartError.toNat < 2 ^ c.cntBits ∧ s.diag.packetsReceived.toNat < 2 ^ c.cntBits ∧
    s.diag.packetsDropped.toNat < 2 ^ c.cntBits
  /-- `DIAG_BUS_STATE` reads 0 forever (R26). -/
  busState : s.diag.busState = 0
  /-- `FAULT` is 0 exactly while the block is not halted (R30). -/
  faultHalted : s.halted = false ↔ s.fault = .none

/-- A block that takes events: not stopped. -/
abbrev Live (s : State) : Prop := s.halted = false

/-- A block that takes every event: not stopped, and initialized. -/
abbrev Running (s : State) : Prop := s.halted = false ∧ s.running = true

/-- The timer slot a retime leaves on a bus that is not receiving (R162). -/
def armedAfter (c : Config) (f : Status) (rnd : Byte) : Timer :=
  if f.txQueued && !f.txActive then { kind := .flush, delayUs := BitVec.ofNat 24 (backoff c rnd) }
  else { kind := .tick, delayUs := BitVec.ofNat 24 c.tickUs }

/-- The `ARM_TIMER` word of a timer slot. -/
def Timer.armWord (t : Timer) : Word := (Command.armTimer t.kind t.delayUs).word

/-- How many of this event's commands have the code `cmd` (R85). -/
def State.commandCount (s : State) (cmd : BitVec 4) : Nat := s.out.countP fun w => commandCode w == cmd

/-- The event with another random draw. -/
def withRnd (r : Byte) : Instr → Instr
  | .init _ => .init r
  | .pktReady _ => .pktReady r
  | .fall w _ => .fall w r
  | .rxb off data => .rxb off data
  | .rxdone e left dacc _ => .rxdone e left dacc r
  | .txdone _ => .txdone r
  | .fire pull stx fsize handle _ => .fire pull stx fsize handle r
  | .rd addr => .rd addr

/-- What of an answer does not show the counters: the counters themselves and the read value are put to their reset
values. -/
def forgetCounters : Result → Result
  | .next t => .next { t with diag := Diag.reset, rdata := none }
  | .fault r => .fault r
  | .refused r => .refused r

/-- The events of the list one after the other (R61), up to the first that gives no next state. -/
def execAll : List Instr → State → Result
  | [], s => .next s
  | i :: rest, s =>
    match exec i s with
    | .next t => execAll rest t
    | .fault r => .fault r
    | .refused r => .refused r

end Sys2Proof.Machine
end

