-- ==== Sys2Proof/Certificates/Slice0/Obligations.lean ====
section
/-! DEFINITION. The statements for the provers. Statements about `exec` and `step` are about the configuration of the
defaults (R8); statements about `eventOf c` and `stepOf c` are about every configuration, and `exec` is
`eventOf defaultConfig` (Laws/Events.lean). `out` and `rdata` are the output port (R85): what the event itself emitted. The three port fields `events`, `out` and `rdata`
are the model's own (logs 2, 4 and 10); the clauses of a statement that name them rest on that choice. -/

open Sys2Proof Sys2Proof.Machine

/-! ## Reset, parameters, encoding -/

/-- R260: what reset leaves in every element of R20; it emits no command, and a halted block has no step that leaves it. -/
def Obligations.ResetLeavesEveryElementZero : Prop :=
  State.reset.status.bits = 0#3 ∧
  State.reset.txf = { valid := false, handle := 0, size := 0 } ∧
  State.reset.timer = { kind := .none, delayUs := 0 } ∧
  (∀ a, State.reset.rxbuf.read a = 0) ∧
  State.reset.diag.loError = 0 ∧ State.reset.diag.timeoutError = 0 ∧ State.reset.diag.uartError = 0 ∧
  State.reset.diag.packetsReceived = 0 ∧ State.reset.diag.packetsDropped = 0 ∧ State.reset.diag.busState = 0 ∧
  State.reset.running = false ∧ State.reset.fault.code = 0#4 ∧ State.reset.halted = false ∧
  State.reset.out = [] ∧ State.reset.rdata = none ∧
  (∀ s : State, s.halted = true → step s = .fault .halted)

/-- Reset meets the invariant of R41, under every configuration. -/
def Obligations.ResetMeetsTheInvariant : Prop := ∀ c : Config, Inv c State.reset

/-- The configuration `exec` runs is the defaults of R8, the model's choice of parameters (log 1), and its `crc16` has the
check value R14 gives for the ASCII bytes of "123456789". -/
def Obligations.ExecRunsTheDefaultParameters : Prop :=
  defaultConfig.hdrBytes = 12 ∧ defaultConfig.frameMax = 252 ∧ defaultConfig.svcSizeOff = 12 ∧
  defaultConfig.svcMax = 236 ∧ defaultConfig.nextgenMask = 0x80 ∧ defaultConfig.probeBytes = 8 ∧
  defaultConfig.waitHighUs = 1000 ∧ defaultConfig.hdrCheckUs = 250 ∧ defaultConfig.rxPerByteUs = 12 ∧
  defaultConfig.rxOverheadUs = 60 ∧ defaultConfig.backoffTargetUs = 150 ∧ defaultConfig.jitterMask = 0x7F ∧
  defaultConfig.backoffCorrUs = 40 ∧ defaultConfig.tickUs = 10000 ∧ defaultConfig.cntBits = 32 ∧
  defaultConfig.crc16 [0x31, 0x32, 0x33, 0x34, 0x35, 0x36, 0x37, 0x38, 0x39] = 0x29B1

/-- Words of R90 and of the vectors of 95_test_vectors.md, at least one of each format, decode to the events they stand for;
the words of `FIRE` and of `RXDONE` tell each of their single bits from the others. -/
def Obligations.ExampleWordsDecode : Prop :=
  decode 0x100000FF = some (.init 0xFF) ∧
  decode 0x20000040 = some (.pktReady 0x40) ∧
  decode 0x30000100 = some (.fall true 0x00) ∧
  decode 0x40020A00 = some (.rxb 2 0x0A) ∧
  decode 0x50E60100 = some (.rxdone false 230 true 0x00) ∧
  decode 0x51E60000 = some (.rxdone true 230 false 0x00) ∧
  decode 0x60000005 = some (.txdone 0x05) ∧
  decode 0x7C0A0540 = some (.fire true true 10 5 0x40) ∧
  decode 0x780A0710 = some (.fire true false 10 7 0x10) ∧
  decode 0x74030900 = some (.fire false true 3 9 0x00) ∧
  decode 0x80000013 = some (.rd 0x013)

/-- Every event is read back from its word, with every field at every value (R72 to R79). -/
def Obligations.DecodeReadsBackEveryEvent : Prop := ∀ i : Instr, decode (encode i) = some i

/-- A word that decodes is the word of the event it decodes to: every bit of it is a field's, the opcode's, or a reserved
0 (R72 to R79). -/
def Obligations.DecodedWordsAreTheirEventsWords : Prop := ∀ (w : Word) (i : Instr), decode w = some i → encode i = w

/-- R80: a word decodes exactly when the match and mask of a format hold of it, and then of one format only; any other word
stops a block that is not halted with `FAULT = 15`, changing nothing else of the block. -/
def Obligations.IllegalWordsStopTheBlock : Prop :=
  (∀ w : Word, (decode w).isSome = legal w) ∧
  (∀ w : Word, legal w = true → ∃ f ∈ formats, f.holds w = true ∧ ∀ g ∈ formats, g.holds w = true → g = f) ∧
  (∀ (s : State) (w : Word) (rest : List Word), Live s → s.events = w :: rest → legal w = false →
    step s = .next { s with events := rest, fault := .illegalEvent, halted := true, out := [], rdata := none }) ∧
  StopCause.illegalEvent.code = 15#4

/-- The number each event word is (R71 to R79): its opcode and each field at the place the format gives it, reserved bits 0.
With `DecodeReadsBackEveryEvent` and `DecodedWordsAreTheirEventsWords` this says which fields each legal word has. -/
def Obligations.EventWordsAsTheFormatsSay : Prop :=
  (∀ rnd, (encode (.init rnd)).toNat = 0x1 * 2 ^ 28 + rnd.toNat) ∧
  (∀ rnd, (encode (.pktReady rnd)).toNat = 0x2 * 2 ^ 28 + rnd.toNat) ∧
  (∀ w rnd, (encode (.fall w rnd)).toNat = 0x3 * 2 ^ 28 + w.toNat * 2 ^ 8 + rnd.toNat) ∧
  (∀ off data, (encode (.rxb off data)).toNat = 0x4 * 2 ^ 28 + off.toNat * 2 ^ 16 + data.toNat * 2 ^ 8) ∧
  (∀ e left dacc rnd, (encode (.rxdone e left dacc rnd)).toNat =
    0x5 * 2 ^ 28 + e.toNat * 2 ^ 24 + left.toNat * 2 ^ 16 + dacc.toNat * 2 ^ 8 + rnd.toNat) ∧
  (∀ rnd, (encode (.txdone rnd)).toNat = 0x6 * 2 ^ 28 + rnd.toNat) ∧
  (∀ pull stx fsize handle rnd, (encode (.fire pull stx fsize handle rnd)).toNat =
    0x7 * 2 ^ 28 + pull.toNat * 2 ^ 27 + stx.toNat * 2 ^ 26 + fsize.toNat * 2 ^ 16 + handle.toNat * 2 ^ 8 + rnd.toNat) ∧
  (∀ addr, (encode (.rd addr)).toNat = 0x8 * 2 ^ 28 + addr.toNat)

/-- The number each command word is (R85, R86): its code, its fields where R86 puts them, unused bits 0; and the numbers of
the `KIND` field (R24, R87) and of the `CAUSE` field and `FAULT` (R87, R230). -/
def Obligations.CommandWordsAsTheMapSays : Prop :=
  (∀ len, (Command.startRx len).word.toNat = 0x1 * 2 ^ 28 + len.toNat) ∧
  Command.flushRx.word.toNat = 0x2 * 2 ^ 28 ∧
  Command.disableRx.word.toNat = 0x3 * 2 ^ 28 ∧
  (∀ us, (Command.waitHigh us).word.toNat = 0x4 * 2 ^ 28 + us.toNat) ∧
  (∀ handle n, (Command.startTx handle n).word.toNat = 0x5 * 2 ^ 28 + handle.toNat * 2 ^ 16 + n.toNat) ∧
  (∀ kind us, (Command.armTimer kind us).word.toNat = 0x6 * 2 ^ 28 + kind.code.toNat * 2 ^ 24 + us.toNat) ∧
  Command.pullFrame.word.toNat = 0x7 * 2 ^ 28 ∧
  (∀ handle, (Command.frameSent handle).word.toNat = 0x8 * 2 ^ 28 + handle.toNat) ∧
  (∀ len, (Command.dispatch len).word.toNat = 0x9 * 2 ^ 28 + len.toNat) ∧
  (∀ cause, (Command.abort cause).word.toNat = 0xA * 2 ^ 28 + cause.code.toNat) ∧
  TimerKind.none.code.toNat = 0 ∧ TimerKind.hdrCheck.code.toNat = 1 ∧ TimerKind.frameTimeout.code.toNat = 2 ∧
  TimerKind.flush.code.toNat = 3 ∧ TimerKind.tick.code.toNat = 4 ∧
  StopCause.none.code.toNat = 0 ∧ StopCause.fatalRxOverlap.code.toNat = 1 ∧ StopCause.fatalTickDuringTx.code.toNat = 2 ∧
  StopCause.fatalEdgeDuringTx.code.toNat = 3 ∧ StopCause.envNotRunning.code.toNat = 8 ∧
  StopCause.envReinit.code.toNat = 9 ∧ StopCause.envSpuriousTimer.code.toNat = 10 ∧
  StopCause.envSpuriousRxDone.code.toNat = 11 ∧ StopCause.envSpuriousTxDone.code.toNat = 12 ∧
  StopCause.envRxDataUnarmed.code.toNat = 13 ∧ StopCause.envBadField.code.toNat = 14 ∧
  StopCause.illegalEvent.code.toNat = 15

/-- Two commands with one word are one command: an output word says which command it is, and every field of it. -/
def Obligations.CommandWordsNameOneCommand : Prop := ∀ a b : Command, a.word = b.word → a = b

/-! ## Steps and stops -/

/-- The step of a block whose next offered word decodes to `i` is `exec` of `i`, with the word taken from the port. -/
def Obligations.StepRunsTheNextEvent : Prop :=
  ∀ (s : State) (w : Word) (rest : List Word) (i : Instr), s.events = w :: rest → decode w = some i →
    step s = exec i { s with events := rest }

/-- An event offered through `withFetchWord` is the very next one run, and nothing else is touched. -/
def Obligations.OfferedEventIsRunNext : Prop :=
  ∀ (i : Instr) (s : State), step (s.withFetchWord 32 (encode i).toNat) = exec i s

/-- R233: once halted, no event has a step, and neither does the block. -/
def Obligations.HaltedBlockTakesNothing : Prop :=
  ∀ s : State, s.halted = true → step s = .fault .halted ∧ ∀ i : Instr, exec i s = .fault .halted

/-- A live block that is offered no event waits: its step changes nothing. The model's choice (log 2). -/
def Obligations.NoEventNoChange : Prop := ∀ s : State, Live s → s.events = [] → step s = .next s

/-- R238: the order of the checks, and what each leads to. Halted: no step. An undecodable word: `IllegalEvent`, whatever
`RUNNING` is. Then the event's first cause (checks 3 to 6) stops the block, with `ABORT` for a fatal one (R231) and no
command for any other (R235); an event with no cause is performed, and does not stop the block. -/
def Obligations.ChecksComeInOrder : Prop :=
  (∀ s : State, s.halted = true → step s = .fault .halted) ∧
  (∀ (s : State) (w : Word) (rest : List Word), Live s → s.events = w :: rest → decode w = none →
    step s = .next { s with events := rest, fault := .illegalEvent, halted := true, out := [], rdata := none }) ∧
  (∀ (i : Instr) (s : State) (cause : StopCause), Live s → firstCause defaultConfig i s = some cause →
    exec i s = .next { s with
      fault := cause
      halted := true
      out := if isFatal cause then [(Command.abort cause).word] else []
      rdata := none }) ∧
  (∀ (i : Instr) (s : State), Live s → firstCause defaultConfig i s = none →
    ∃ t, exec i s = .next t ∧ t.halted = false ∧ t.fault = s.fault)

/-- R13: an event that stops the block changes nothing but `FAULT` and `HALTED`, and emits one `ABORT` if the cause is
fatal and nothing otherwise. -/
def Obligations.StopsChangeNothingElse : Prop :=
  ∀ (c : Config) (s t : State), Live s → stepOf c s = .next t → t.halted = true →
    t.status = s.status ∧ t.txf = s.txf ∧ t.timer = s.timer ∧ t.rxbuf = s.rxbuf ∧ t.diag = s.diag ∧
    t.running = s.running ∧ t.rdata = none ∧ t.fault ≠ .none ∧
    t.out = if isFatal t.fault then [(Command.abort t.fault).word] else []

/-- `ABORT` is emitted by an event that raises a fatal cause, once, and by no other event (R231, R235). -/
def Obligations.AbortExactlyOnFatal : Prop :=
  ∀ (c : Config) (i : Instr) (s t : State), eventOf c i s = .next t →
    t.commandCount 0xA = if (firstCause c i s).any isFatal then 1 else 0

/-- `RUNNING` is set by `INIT` alone and never cleared (R29); `FAULT` is written only by the event that halts (R30). -/
def Obligations.RunningAndFaultAreWrittenOnce : Prop :=
  ∀ (c : Config) (i : Instr) (s t : State), eventOf c i s = .next t →
    (s.running = true → t.running = true) ∧
    (s.running = false → t.running = true → ∃ rnd, i = .init rnd) ∧
    (t.halted = false → t.fault = s.fault)

/-! ## The events, one by one -/

/-- R210, `INIT`: a second one is `EnvFault(9)`; the first sets `RUNNING` and runs one retime. In every state of R41
`STATUS` is 0 there (item 2), so the retime arms the idle tick; on any other `STATUS` it does what R162 says. -/
def Obligations.InitStartsTheIdleTick : Prop :=
  ∀ (rnd : Byte) (s : State), Live s →
    (s.running = true → exec (.init rnd) s =
      .next { s with fault := .envReinit, halted := true, out := [], rdata := none }) ∧
    (s.running = false → s.status.allClear = true → exec (.init rnd) s =
      .next { s with
        running := true
        timer := { kind := .tick, delayUs := BitVec.ofNat 24 defaultConfig.tickUs }
        out := [(Command.armTimer .tick (BitVec.ofNat 24 defaultConfig.tickUs)).word]
        rdata := none }) ∧
    (s.running = false → s.status.rxActive = true → exec (.init rnd) s =
      .next { s with running := true, out := [], rdata := none }) ∧
    (s.running = false → s.status.rxActive = false → exec (.init rnd) s =
      .next { s with
        running := true
        timer := armedAfter defaultConfig s.status rnd
        out := [(armedAfter defaultConfig s.status rnd).armWord]
        rdata := none })

/-- R165, `PKT_READY`: on an entirely idle block it sets the pending flag and arms the randomized flush; on any other it
only sets the flag. -/
def Obligations.PktReadyMarksAndArbitrates : Prop :=
  ∀ (rnd : Byte) (s : State), Running s →
    (s.status.allClear = true → exec (.pktReady rnd) s =
      .next { s with
        status := { rxActive := false, txActive := false, txQueued := true }
        timer := { kind := .flush, delayUs := BitVec.ofNat 24 (backoff defaultConfig rnd) }
        out := [(Command.armTimer .flush (BitVec.ofNat 24 (backoff defaultConfig rnd))).word]
        rdata := none }) ∧
    (s.status.allClear = false → exec (.pktReady rnd) s =
      .next { s with status := { s.status with txQueued := true }, out := [], rdata := none })

/-- R166: with the pending flag set, `PKT_READY` changes nothing and emits nothing; so any number of further `PKT_READY`
events after one have the effect of that one (up to the output port, which shows the last event's commands). -/
def Obligations.PktReadyIsIdempotent : Prop :=
  (∀ (rnd : Byte) (s : State), Running s → s.status.txQueued = true →
    exec (.pktReady rnd) s = .next { s with out := [], rdata := none }) ∧
  (∀ (rnd : Byte) (more : List Byte) (s t : State), Running s → exec (.pktReady rnd) s = .next t →
    ∃ u, execAll (more.map Instr.pktReady) t = .next u ∧
      { u with out := [], rdata := none } = { t with out := [], rdata := none })

/-- R100, `FALL`: fatal during a reception, then during a transmission; else the buffer is zeroed, the receiver armed and
the line waited for. The line back high: `RX_ACTIVE` and the header check. The line still low: the reception is abandoned
as a timeout, and the bus is arbitrated again. -/
def Obligations.FallStartsAReception : Prop :=
  ∀ (w : Bool) (rnd : Byte) (s : State), Running s →
    (s.status.rxActive = true → exec (.fall w rnd) s = .next { s with
      fault := .fatalRxOverlap, halted := true, out := [(Command.abort .fatalRxOverlap).word], rdata := none }) ∧
    (s.status.rxActive = false → s.status.txActive = true → exec (.fall w rnd) s = .next { s with
      fault := .fatalEdgeDuringTx, halted := true, out := [(Command.abort .fatalEdgeDuringTx).word], rdata := none }) ∧
    (s.status.rxActive = false → s.status.txActive = false → w = true → ∃ t, exec (.fall w rnd) s = .next t ∧
      (∀ a, t.rxbuf.read a = 0) ∧ Memory.wf defaultConfig.frameMax t.rxbuf = true ∧
      t = { s with
        status := { s.status with rxActive := true }
        rxbuf := t.rxbuf
        timer := { kind := .hdrCheck, delayUs := BitVec.ofNat 24 defaultConfig.hdrCheckUs }
        out := [(Command.startRx (BitVec.ofNat 16 defaultConfig.frameMax)).word,
          (Command.waitHigh (BitVec.ofNat 16 defaultConfig.waitHighUs)).word,
          (Command.armTimer .hdrCheck (BitVec.ofNat 24 defaultConfig.hdrCheckUs)).word]
        rdata := none }) ∧
    (s.status.rxActive = false → s.status.txActive = false → w = false → ∃ t, exec (.fall w rnd) s = .next t ∧
      (∀ a, t.rxbuf.read a = 0) ∧ Memory.wf defaultConfig.frameMax t.rxbuf = true ∧
      t = { s with
        rxbuf := t.rxbuf
        diag := { s.diag with timeoutError := inc defaultConfig s.diag.timeoutError }
        timer := armedAfter defaultConfig s.status rnd
        out := [(Command.startRx (BitVec.ofNat 16 defaultConfig.frameMax)).word,
          (Command.waitHigh (BitVec.ofNat 16 defaultConfig.waitHighUs)).word,
          Command.disableRx.word, (armedAfter defaultConfig s.status rnd).armWord]
        rdata := none })

/-- R110, `RXB`: refused while no reception is armed, then outside the buffer; else exactly the byte at `OFF` becomes
`DATA`, and nothing else changes. -/
def Obligations.RxbStoresOneByte : Prop :=
  ∀ (off data : Byte) (s : State), Running s → Memory.wf defaultConfig.frameMax s.rxbuf = true →
    (s.status.rxActive = false → exec (.rxb off data) s =
      .next { s with fault := .envRxDataUnarmed, halted := true, out := [], rdata := none }) ∧
    (s.status.rxActive = true → defaultConfig.frameMax ≤ off.toNat → exec (.rxb off data) s =
      .next { s with fault := .envBadField, halted := true, out := [], rdata := none }) ∧
    (s.status.rxActive = true → off.toNat < defaultConfig.frameMax → ∃ t, exec (.rxb off data) s = .next t ∧
      t = { s with rxbuf := t.rxbuf, out := [], rdata := none } ∧
      ∀ a, t.rxbuf.read a = if a = off.toNat then data else s.rxbuf.read a)

/-- R130, `RXDONE`: refused while no reception is active, then for a count larger than the armed one; else the retime first,
always, then the validation chain in its order: zero size, hardware error, length, integrity, bounds, next generation,
forward. The integrity code covers bytes 2 to `decl - 1` and is embedded low byte first (R55). -/
def Obligations.RxdoneValidatesTheFrame : Prop :=
  ∀ (e : Bool) (left : Byte) (dacc : Bool) (rnd : Byte) (s : State), Running s →
    (s.status.rxActive = false → exec (.rxdone e left dacc rnd) s =
      .next { s with fault := .envSpuriousRxDone, halted := true, out := [], rdata := none }) ∧
    (s.status.rxActive = true → defaultConfig.frameMax < left.toNat → exec (.rxdone e left dacc rnd) s =
      .next { s with fault := .envBadField, halted := true, out := [], rdata := none }) ∧
    (s.status.rxActive = true → left.toNat ≤ defaultConfig.frameMax →
      ∀ (m : Memory) (decl : Nat) (after : Status) (arm : Word) (d : Diag),
      m = s.rxbuf → decl = (m.read 2).toNat + defaultConfig.hdrBytes →
      after = { s.status with rxActive := false } → arm = (armedAfter defaultConfig after rnd).armWord → d = s.diag →
      ∃ t, exec (.rxdone e left dacc rnd) s = .next t ∧
        t = { s with
          status := after, timer := armedAfter defaultConfig after rnd, diag := t.diag, out := t.out, rdata := none } ∧
        (t.diag, t.out) =
          if m.read 2 = 0 then (d, [arm])
          else if e = true then ({ d with uartError := inc defaultConfig d.uartError }, [arm])
          else if defaultConfig.frameMax - left.toNat < decl then
            ({ d with uartError := inc defaultConfig d.uartError }, [arm])
          else if (defaultConfig.crc16 ((List.range (decl - 2)).map fun k => m.read (2 + k))).toNat
              ≠ (m.read 0).toNat + 256 * (m.read 1).toNat then
            ({ d with uartError := inc defaultConfig d.uartError }, [arm])
          else if defaultConfig.frameMax < decl ∨ defaultConfig.svcMax < (m.read defaultConfig.svcSizeOff).toNat then
            ({ d with uartError := inc defaultConfig d.uartError }, [arm])
          else if m.read 3 &&& defaultConfig.nextgenMask ≠ 0 then
            ({ d with packetsDropped := inc defaultConfig d.packetsDropped }, [arm])
          else if dacc = true then
            ({ d with packetsReceived := inc defaultConfig d.packetsReceived },
              [arm, (Command.dispatch (BitVec.ofNat 16 decl)).word])
          else
            ({ d with packetsReceived := inc defaultConfig d.packetsReceived,
                      packetsDropped := inc defaultConfig d.packetsDropped },
              [arm, (Command.dispatch (BitVec.ofNat 16 decl)).word]))

/-- R176, `TXDONE`: refused while no transmission is in flight; else the claimed frame goes back to its owner, the reference
is discarded, and the bus is released and arbitrated again, or left to a reception (which no state of R41 has here). -/
def Obligations.TxdoneReturnsTheFrame : Prop :=
  ∀ (rnd : Byte) (s : State) (after : Status), Running s → after = { s.status with txActive := false } →
    (s.status.txActive = false → exec (.txdone rnd) s =
      .next { s with fault := .envSpuriousTxDone, halted := true, out := [], rdata := none }) ∧
    (s.status.txActive = true → s.status.rxActive = false → exec (.txdone rnd) s =
      .next { s with
        status := after
        txf := { valid := false, handle := 0, size := 0 }
        timer := armedAfter defaultConfig after rnd
        out := [(Command.frameSent s.txf.handle).word, (armedAfter defaultConfig after rnd).armWord]
        rdata := none }) ∧
    (s.status.txActive = true → s.status.rxActive = true → exec (.txdone rnd) s =
      .next { s with
        status := after
        txf := { valid := false, handle := 0, size := 0 }
        out := [(Command.frameSent s.txf.handle).word]
        rdata := none })

/-- R112, `FIRE` of the header check: nothing but the emptied slot without a reception; with a byte of the header there, the
frame timeout is armed for the declared size; with none, the reception is abandoned as a timeout. -/
def Obligations.HeaderCheckFire : Prop :=
  ∀ (pull stx : Bool) (fsize handle rnd : Byte) (s : State) (after : Status) (us : BitVec 24),
    Running s → s.timer.kind = .hdrCheck → after = { s.status with rxActive := false } →
    us = BitVec.ofNat 24 (((s.rxbuf.read 2).toNat + defaultConfig.hdrBytes) * defaultConfig.rxPerByteUs
      + defaultConfig.rxOverheadUs) →
    (s.status.rxActive = false → exec (.fire pull stx fsize handle rnd) s =
      .next { s with timer := { kind := .none, delayUs := 0 }, out := [], rdata := none }) ∧
    (s.status.rxActive = true → (∃ a < defaultConfig.probeBytes, s.rxbuf.read a ≠ 0) →
      exec (.fire pull stx fsize handle rnd) s = .next { s with
        timer := { kind := .frameTimeout, delayUs := us }
        out := [Command.flushRx.word, (Command.armTimer .frameTimeout us).word]
        rdata := none }) ∧
    (s.status.rxActive = true → (∀ a < defaultConfig.probeBytes, s.rxbuf.read a = 0) →
      exec (.fire pull stx fsize handle rnd) s = .next { s with
        status := after
        diag := { s.diag with timeoutError := inc defaultConfig s.diag.timeoutError }
        timer := armedAfter defaultConfig after rnd
        out := [Command.flushRx.word, Command.disableRx.word, (armedAfter defaultConfig after rnd).armWord]
        rdata := none })

/-- R114, `FIRE` of the frame timeout: the stalled reception is abandoned as a timeout; without a reception, nothing but the
emptied slot. -/
def Obligations.FrameTimeoutFire : Prop :=
  ∀ (pull stx : Bool) (fsize handle rnd : Byte) (s : State) (after : Status),
    Running s → s.timer.kind = .frameTimeout → after = { s.status with rxActive := false } →
    (s.status.rxActive = false → exec (.fire pull stx fsize handle rnd) s =
      .next { s with timer := { kind := .none, delayUs := 0 }, out := [], rdata := none }) ∧
    (s.status.rxActive = true → exec (.fire pull stx fsize handle rnd) s = .next { s with
      status := after
      diag := { s.diag with timeoutError := inc defaultConfig s.diag.timeoutError }
      timer := armedAfter defaultConfig after rnd
      out := [Command.disableRx.word, (armedAfter defaultConfig after rnd).armWord]
      rdata := none })

/-- R170, `FIRE` of the flush: it defers on a busy bus; else it claims the bus and starts the frame already claimed, or the
one the owner has, or releases the bus at once if the owner has none. A lost start race keeps the frame, counts a
low-level error and stays pending (R173); a started one leaves nothing armed (R174). -/
def Obligations.FlushFire : Prop :=
  ∀ (pull stx : Bool) (fsize handle rnd : Byte) (s : State) (f : TxFrame) (start : Word) (retry idle : Timer),
    Running s → s.timer.kind = .flush →
    f = (if s.txf.valid then s.txf else { valid := true, handle := handle, size := fsize }) →
    start = (Command.startTx f.handle (BitVec.ofNat 16 (f.size.toNat + defaultConfig.hdrBytes))).word →
    retry = { kind := .flush, delayUs := BitVec.ofNat 24 (backoff defaultConfig rnd) } →
    idle = { kind := .tick, delayUs := BitVec.ofNat 24 defaultConfig.tickUs } →
    (s.status.rxActive = true ∨ s.status.txActive = true → exec (.fire pull stx fsize handle rnd) s =
      .next { s with timer := { kind := .none, delayUs := 0 }, out := [], rdata := none }) ∧
    (s.status.rxActive = false → s.status.txActive = false → s.txf.valid = false → pull = false →
      exec (.fire pull stx fsize handle rnd) s = .next { s with
        status := { rxActive := false, txActive := false, txQueued := false }
        timer := idle
        out := [Command.pullFrame.word, idle.armWord]
        rdata := none }) ∧
    (s.status.rxActive = false → s.status.txActive = false → (s.txf.valid = true ∨ pull = true) → stx = true →
      exec (.fire pull stx fsize handle rnd) s = .next { s with
        status := { rxActive := false, txActive := true, txQueued := false }
        txf := f
        timer := { kind := .none, delayUs := 0 }
        out := (if s.txf.valid then [] else [Command.pullFrame.word]) ++ [start]
        rdata := none }) ∧
    (s.status.rxActive = false → s.status.txActive = false → (s.txf.valid = true ∨ pull = true) → stx = false →
      exec (.fire pull stx fsize handle rnd) s = .next { s with
        status := { rxActive := false, txActive := false, txQueued := true }
        txf := f
        timer := retry
        diag := { s.diag with loError := inc defaultConfig s.diag.loError }
        out := (if s.txf.valid then [] else [Command.pullFrame.word]) ++ [start, retry.armWord]
        rdata := none })

/-- R205, `FIRE` of the idle tick: fatal during a transmission, the slot then keeping what it held (R13; log 3); else one
retime, which waits for a reception and otherwise arms the timer again. -/
def Obligations.TickFire : Prop :=
  ∀ (pull stx : Bool) (fsize handle rnd : Byte) (s : State), Running s → s.timer.kind = .tick →
    (s.status.txActive = true → exec (.fire pull stx fsize handle rnd) s = .next { s with
      fault := .fatalTickDuringTx, halted := true, out := [(Command.abort .fatalTickDuringTx).word], rdata := none }) ∧
    (s.status.txActive = false → s.status.rxActive = true → exec (.fire pull stx fsize handle rnd) s =
      .next { s with timer := { kind := .none, delayUs := 0 }, out := [], rdata := none }) ∧
    (s.status.txActive = false → s.status.rxActive = false → exec (.fire pull stx fsize handle rnd) s =
      .next { s with
        timer := armedAfter defaultConfig s.status rnd
        out := [(armedAfter defaultConfig s.status rnd).armWord]
        rdata := none })

/-- R202: a fire consumes the slot. One with nothing armed is `EnvFault(10)`; one that is taken and arms nothing leaves the
slot empty, so that a further one is refused. -/
def Obligations.FireConsumesTheSlot : Prop :=
  ∀ (pull stx : Bool) (fsize handle rnd : Byte) (s : State), Running s →
    (s.timer.kind = .none → exec (.fire pull stx fsize handle rnd) s =
      .next { s with fault := .envSpuriousTimer, halted := true, out := [], rdata := none }) ∧
    (∀ t, exec (.fire pull stx fsize handle rnd) s = .next t → t.halted = false → t.commandCount 0x6 = 0 →
      t.timer = { kind := .none, delayUs := 0 } ∧
      ∀ (pull' stx' : Bool) (fsize' handle' rnd' : Byte), exec (.fire pull' stx' fsize' handle' rnd') t =
        .next { t with fault := .envSpuriousTimer, halted := true, out := [], rdata := none })

/-- R215 and the read port of R31 to R38: `RD` is taken before and after `INIT`, returns the number the map gives at the
address, and changes nothing. -/
def Obligations.RdReadsTheMap : Prop :=
  ∀ (addr : BitVec 12) (s : State) (a : Nat), Live s → a = addr.toNat → ∃ v : Word,
    exec (.rd addr) s = .next { s with out := [], rdata := some v } ∧
    v.toNat =
      if a = 0x000 then s.status.rxActive.toNat + 2 * s.status.txActive.toNat + 4 * s.status.txQueued.toNat
      else if a = 0x001 then
        s.running.toNat + 2 * (s.status.rxActive || s.status.txActive || s.status.txQueued).toNat
      else if a = 0x002 then
        if s.txf.valid then 2 ^ 31 + s.txf.size.toNat * 2 ^ 8 + s.txf.handle.toNat else 0
      else if a = 0x003 then s.timer.kind.code.toNat * 2 ^ 28 + s.timer.delayUs.toNat
      else if a = 0x010 then s.diag.loError.toNat
      else if a = 0x011 then s.diag.timeoutError.toNat
      else if a = 0x012 then s.diag.uartError.toNat
      else if a = 0x013 then s.diag.packetsReceived.toNat
      else if a = 0x014 then s.diag.packetsDropped.toNat
      else if a = 0x015 then s.diag.busState.toNat
      else if 0x100 ≤ a ∧ a < 0x100 + defaultConfig.frameMax then (s.rxbuf.read (a - 0x100)).toNat
      else 0

/-! ## Rules over all events -/

/-- R216: a register read after another read shows the same state, under every configuration. -/
def Obligations.ReadsShowOneState : Prop :=
  ∀ (c : Config) (a b : BitVec 12) (s t : State), eventOf c (.rd a) s = .next t →
    eventOf c (.rd b) t = eventOf c (.rd b) s

/-- R161: the backoff delay is the rule's difference of integers under every configuration, and under the defaults it is
47 plus the low 7 bits of the draw, from 47 to 174. -/
def Obligations.BackoffDelay : Prop :=
  (∀ (c : Config) (rnd : Byte), (backoff c rnd : Int) =
    (c.backoffTargetUs : Int) - (c.jitterMask >>> 1 : Nat) + (rnd.toNat &&& c.jitterMask : Nat) - c.backoffCorrUs) ∧
  (∀ rnd : Byte, backoff defaultConfig rnd = 47 + rnd.toNat % 128 ∧
    47 ≤ backoff defaultConfig rnd ∧ backoff defaultConfig rnd ≤ 174)

/-- Under every configuration each delay and length fits the field of the command that carries it, so no field is cut off
(what the constraints of R9 are chosen for). -/
def Obligations.FieldsHoldTheirValues : Prop :=
  ∀ c : Config,
    (∀ rnd, 1 ≤ backoff c rnd ∧ backoff c rnd < 2 ^ 24) ∧
    (∀ m, frameTimeoutUs c m < 2 ^ 24) ∧ c.hdrCheckUs < 2 ^ 24 ∧ c.tickUs < 2 ^ 24 ∧
    c.waitHighUs < 2 ^ 16 ∧ c.frameMax < 2 ^ 16 ∧ (∀ f, transmitLength c f < 2 ^ 16) ∧
    (∀ m, declaredSize c m < 2 ^ 16)

/-- Buffers in canonical form that read alike are the same data. -/
def Obligations.CanonicalBuffersAreTheirBytes : Prop :=
  ∀ (size : Nat) (m m' : Memory), m.wf size = true → m'.wf size = true → (∀ a < size, m.read a = m'.read a) → m = m'

/-- The receive buffer is written by `FALL`, which zeroes it, and by `RXB`, in one byte (R50, R67); every other event, and
every event that stops the block, leaves every byte. -/
def Obligations.OnlyFallAndRxbWriteTheBuffer : Prop :=
  ∀ (c : Config) (i : Instr) (s t : State), eventOf c i s = .next t →
    ∀ a, t.rxbuf.read a = s.rxbuf.read a ∨
      ((∃ w rnd, i = .fall w rnd) ∧ t.rxbuf.read a = 0) ∨ (∃ off data, i = .rxb off data ∧ a = off.toNat)

/-- R201: an event that emits `ARM_TIMER(k, d)` leaves `TIMER = (k, d)`, whatever it held, with `k` not `NONE`; one that emits none leaves `TIMER`
as it was, or, if it is a fire that was taken, empty. -/
def Obligations.ArmTimerIsTheSlot : Prop :=
  ∀ (c : Config) (i : Instr) (s t : State), eventOf c i s = .next t →
    (∀ k d, (Command.armTimer k d).word ∈ t.out → k ≠ .none ∧ t.timer = { kind := k, delayUs := d }) ∧
    (t.commandCount 0x6 = 0 → t.timer = s.timer ∨
      ((∃ pull stx fsize handle rnd, i = .fire pull stx fsize handle rnd) ∧ t.timer = { kind := .none, delayUs := 0 }))

/-- No event emits two `ARM_TIMER` or two `START_TX` commands (R163, R177). -/
def Obligations.AtMostOneArmAndOneStart : Prop :=
  ∀ (c : Config) (i : Instr) (s t : State), eventOf c i s = .next t →
    t.commandCount 0x6 ≤ 1 ∧ t.commandCount 0x5 ≤ 1

/-- R180: `START_TX` is emitted only by a fire of the flush that found no reception and no transmission active, and it names
the frame the block then holds. -/
def Obligations.TransmissionsStartOnAnIdleBus : Prop :=
  ∀ (c : Config) (i : Instr) (s t : State) (handle : Byte) (n : Half), eventOf c i s = .next t →
    (Command.startTx handle n).word ∈ t.out →
    (∃ pull stx fsize h rnd, i = .fire pull stx fsize h rnd) ∧ s.timer.kind = .flush ∧
    s.status.rxActive = false ∧ s.status.txActive = false ∧ t.txf.valid = true ∧ t.txf.handle = handle ∧
    n.toNat = t.txf.size.toNat + c.hdrBytes

/-- The flags (R21, R22), by what each event does to them. `RX_ACTIVE` is set by `FALL` alone; `TX_ACTIVE` by a fire of the
flush alone, with no reception active; `TX_QUEUED` is set by `PKT_READY` and by a flush that loses the start race. `RX_ACTIVE`
is cleared only by a completed or an abandoned reception and `TX_ACTIVE` only by a transmission's completion, each by the
retime, which arms the timer anew (R22 item 4); `TX_QUEUED` is cleared by a fire of the flush alone. -/
def Obligations.FlagsAreWrittenWhereTheRulesSay : Prop :=
  ∀ (c : Config) (i : Instr) (s t : State), eventOf c i s = .next t →
    (s.status.rxActive = false → t.status.rxActive = true → ∃ rnd, i = .fall true rnd) ∧
    (s.status.txActive = false → t.status.txActive = true →
      (∃ pull fsize handle rnd, i = .fire pull true fsize handle rnd) ∧ s.timer.kind = .flush ∧
        s.status.rxActive = false) ∧
    (s.status.txQueued = true → t.status.txQueued = false →
      (∃ pull stx fsize handle rnd, i = .fire pull stx fsize handle rnd) ∧ s.timer.kind = .flush ∧
        s.status.rxActive = false ∧ s.status.txActive = false) ∧
    (s.status.rxActive = true → t.status.rxActive = false →
      (∃ e left dacc rnd, i = .rxdone e left dacc rnd ∧ t.timer = armedAfter c t.status rnd) ∨
      (∃ pull stx fsize handle rnd, i = .fire pull stx fsize handle rnd ∧ t.timer = armedAfter c t.status rnd ∧
        (s.timer.kind = .hdrCheck ∧ (∀ a < c.probeBytes, s.rxbuf.read a = 0) ∨ s.timer.kind = .frameTimeout))) ∧
    (s.status.txActive = true → t.status.txActive = false →
      ∃ rnd, i = .txdone rnd ∧
        t.timer = if s.status.rxActive then s.timer else armedAfter c t.status rnd) ∧
    (s.status.txQueued = false → t.status.txQueued = true →
      (∃ rnd, i = .pktReady rnd) ∨
      ((∃ pull fsize handle rnd, i = .fire pull false fsize handle rnd) ∧ s.timer.kind = .flush ∧
        s.status.rxActive = false ∧ s.status.txActive = false))

/-- R178: a claimed frame is returned only by `TXDONE`, which names it to its owner, and no rule drops it; a frame is claimed
only by a fire of the flush whose pull succeeds, and no event replaces a claimed one. The return itself is the frame-sent
notification (R23): only a `TXDONE` emits one, and it names the frame the block held. -/
def Obligations.ClaimedFramesAreReturnedOnlyByTxdone : Prop :=
  ∀ (c : Config) (i : Instr) (s t : State), eventOf c i s = .next t →
    (t.txf ≠ s.txf →
      ((∃ rnd, i = .txdone rnd) ∧ t.txf = { valid := false, handle := 0, size := 0 } ∧
        (Command.frameSent s.txf.handle).word ∈ t.out) ∨
      (∃ stx fsize handle rnd, i = .fire true stx fsize handle rnd ∧ s.timer.kind = .flush ∧ s.txf.valid = false ∧
        t.txf = { valid := true, handle := handle, size := fsize } ∧ Command.pullFrame.word ∈ t.out)) ∧
    (∀ h, (Command.frameSent h).word ∈ t.out →
      (∃ rnd, i = .txdone rnd) ∧ h = s.txf.handle ∧ t.txf = { valid := false, handle := 0, size := 0 })

/-- The phases of R40: in a state of the invariant, an event that does not stop the block leaves the phase as it is, or makes
one of the transitions the rule names. -/
def Obligations.PhaseTransitions : Prop :=
  ∀ (c : Config) (i : Instr) (s t : State), Inv c s → eventOf c i s = .next t →
    t.status.phase = s.status.phase ∨
    (s.status.phase, t.status.phase) ∈
      [(Phase.idle, Phase.rxActive), (.rxActive, .idle), (.idle, .txQueued), (.txQueued, .txActive), (.txActive, .idle),
        (.txQueued, .rxActive), (.rxActive, .txQueued), (.txActive, .txQueued), (.txQueued, .idle)]

/-- R26 and R220: an increment adds 1 modulo `2^CNT_BITS`; each counter grows by exactly one increment or not at all, and only
by the rules the table names; `DIAG_BUS_STATE` is never written. -/
def Obligations.CountersCountWhatTheTableSays : Prop :=
  (∀ (c : Config) (n : Word), (inc c n).toNat = (n.toNat + 1) % 2 ^ c.cntBits) ∧
  ∀ (c : Config) (i : Instr) (s t : State), eventOf c i s = .next t →
    t.diag.busState = s.diag.busState ∧
    (t.diag.loError = s.diag.loError ∨ t.diag.loError.toNat = (s.diag.loError.toNat + 1) % 2 ^ c.cntBits ∧
      (∃ pull fsize handle rnd, i = .fire pull false fsize handle rnd) ∧ s.timer.kind = .flush) ∧
    (t.diag.timeoutError = s.diag.timeoutError ∨
      t.diag.timeoutError.toNat = (s.diag.timeoutError.toNat + 1) % 2 ^ c.cntBits ∧
      ((∃ rnd, i = .fall false rnd) ∨ (∃ pull stx fsize handle rnd, i = .fire pull stx fsize handle rnd ∧
        (s.timer.kind = .hdrCheck ∧ (∀ a < c.probeBytes, s.rxbuf.read a = 0) ∨ s.timer.kind = .frameTimeout)))) ∧
    (t.diag.uartError = s.diag.uartError ∨ t.diag.uartError.toNat = (s.diag.uartError.toNat + 1) % 2 ^ c.cntBits ∧
      ∃ e left dacc rnd, i = .rxdone e left dacc rnd ∧ verdict c e left s.rxbuf = .frameError) ∧
    (t.diag.packetsReceived = s.diag.packetsReceived ∨
      t.diag.packetsReceived.toNat = (s.diag.packetsReceived.toNat + 1) % 2 ^ c.cntBits ∧
      ∃ e left dacc rnd, i = .rxdone e left dacc rnd ∧
        verdict c e left s.rxbuf = .forward (declaredSize c s.rxbuf)) ∧
    (t.diag.packetsDropped = s.diag.packetsDropped ∨
      t.diag.packetsDropped.toNat = (s.diag.packetsDropped.toNat + 1) % 2 ^ c.cntBits ∧
      ∃ e left dacc rnd, i = .rxdone e left dacc rnd ∧
        (verdict c e left s.rxbuf = .nextGenDrop ∨
          dacc = false ∧ verdict c e left s.rxbuf = .forward (declaredSize c s.rxbuf)))

/-- R221: the counters decide nothing. Whatever they hold, an event answers the same, but for the counters themselves and the
value an `RD` of one returns. -/
def Obligations.CountersDecideNothing : Prop :=
  ∀ (c : Config) (i : Instr) (s : State) (d : Diag),
    forgetCounters (eventOf c i { s with diag := d }) = forgetCounters (eventOf c i s)

/-- R82: the random draw is read only by an event that arms the flush. -/
def Obligations.DrawMattersOnlyToAFlush : Prop :=
  ∀ (c : Config) (i : Instr) (s t : State) (r : Byte), eventOf c i s = .next t →
    (∀ us, (Command.armTimer .flush us).word ∉ t.out) → eventOf c (withRnd r i) s = .next t

/-- R78: the answer fields of `FIRE` are read only by the flush, and the pull's fields only when no frame is claimed. -/
def Obligations.FireFieldsAreReadOnlyByTheFlush : Prop :=
  ∀ (c : Config) (pull stx pull' stx' : Bool) (fsize handle fsize' handle' rnd : Byte) (s : State),
    (s.timer.kind ≠ .flush →
      eventOf c (.fire pull stx fsize handle rnd) s = eventOf c (.fire pull' stx' fsize' handle' rnd) s) ∧
    (s.txf.valid = true →
      eventOf c (.fire pull stx fsize handle rnd) s = eventOf c (.fire pull' stx fsize' handle' rnd) s)

/-- R140, the forwarding law, under every configuration: a completion that is taken dispatches iff the size is not 0, no
error was reported, enough bytes came, the codes match, the sizes are in bounds and the frame is not next-generation. -/
def Obligations.ForwardingLaw : Prop :=
  ∀ (c : Config) (e : Bool) (left : Byte) (dacc : Bool) (rnd : Byte) (s t : State),
    eventOf c (.rxdone e left dacc rnd) s = .next t → t.halted = false →
    ((∃ len, (Command.dispatch len).word ∈ t.out) ↔
      s.rxbuf.read 2 ≠ 0 ∧ e = false ∧
      (s.rxbuf.read 2).toNat + c.hdrBytes ≤ c.frameMax - left.toNat ∧
      (c.crc16 (frameBytes s.rxbuf 2 ((s.rxbuf.read 2).toNat + c.hdrBytes))).toNat =
        (s.rxbuf.read 0).toNat + 256 * (s.rxbuf.read 1).toNat ∧
      (s.rxbuf.read 2).toNat + c.hdrBytes ≤ c.frameMax ∧
      (s.rxbuf.read c.svcSizeOff).toNat ≤ c.svcMax ∧
      s.rxbuf.read 3 &&& c.nextgenMask = 0)

/-- Every dispatch names at least one payload byte and at most the whole buffer, and is the declared size of the frame the
buffer holds (R138). -/
def Obligations.DispatchLengthIsTheDeclaredSize : Prop :=
  ∀ (c : Config) (i : Instr) (s t : State) (len : Half), eventOf c i s = .next t → (Command.dispatch len).word ∈ t.out →
    len.toNat = (t.rxbuf.read 2).toNat + c.hdrBytes ∧ c.hdrBytes + 1 ≤ len.toNat ∧ len.toNat ≤ c.frameMax

/-! ## Headline results -/

/-- Every step of the machine keeps the invariant: R41's six items, the form of every element, and what `HALTED` and `FAULT`
say of each other. -/
def Obligations.StepKeepsTheInvariant : Prop :=
  ∀ s t : State, Inv defaultConfig s → step s = .next t → Inv defaultConfig t

/-- Every event of every configuration keeps the invariant. -/
def Obligations.EveryConfigurationKeepsTheInvariant : Prop :=
  ∀ (c : Config) (i : Instr) (s t : State), Inv c s → eventOf c i s = .next t → Inv c t

/-- In every live state of the invariant each event is taken, and it stops the block exactly when it breaks `keepsContract`:
the part of items 1 to 5 and 7 of R236 that the block can see. What it cannot see does not stop it: a `FIRE` for a request
that a later one superseded breaks item 2 and, while that later one is armed, is taken as its fire (R268). -/
def Obligations.OnlyBreachesStopTheBlock : Prop :=
  ∀ (c : Config) (i : Instr) (s : State), Inv c s → Live s →
    ∃ t, eventOf c i s = .next t ∧ (t.halted = false ↔ keepsContract c i s = true)

/-- R116: a reception is bounded. In a live state of the invariant with a reception active a fire is taken, and it ends the
reception or leaves the frame timeout armed; a second fire then ends it. -/
def Obligations.TwoFiresEndAReception : Prop :=
  ∀ (c : Config) (s : State) (p x p' x' : Bool) (f h r f' h' r' : Byte), Inv c s → Live s → s.status.rxActive = true →
    ∃ t, eventOf c (.fire p x f h r) s = .next t ∧ t.halted = false ∧
      (t.status.rxActive = false ∨
        t.timer.kind = .frameTimeout ∧ ∃ u, eventOf c (.fire p' x' f' h' r') t = .next u ∧ u.halted = false ∧
          u.status.rxActive = false)
end

