-- ==== Sys2Proof/Laws/Decode.lean ====
section
/-! SUPPORT. What `field`, `bit` and `place` do: a placed field is read back from its own place, and reads 0 from any
place it does not reach. Later proofs about words cite these and never unfold the three. -/

namespace Sys2Proof

theorem getLsbD_field (w : Word) (lo n i : Nat) : (field w lo n).getLsbD i = (decide (i < n) && w.getLsbD (lo + i)) := by
  simp [field]

theorem getLsbD_place {n : Nat} (v : BitVec n) (lo i : Nat) :
    (place v lo).getLsbD i = (decide (i < 32) && (decide (lo ≤ i) && v.getLsbD (i - lo))) := by
  unfold place
  rw [BitVec.getLsbD_shiftLeft, BitVec.getLsbD_setWidth]
  by_cases h : i < 32 <;> by_cases h' : i < lo <;> simp [h, h', Nat.not_le.mpr, Nat.not_lt.mp]
  omega

theorem field_or (a b : Word) (lo n : Nat) : field (a ||| b) lo n = field a lo n ||| field b lo n := by
  apply BitVec.eq_of_getLsbD_eq
  intro i hi
  simp only [BitVec.getLsbD_or, getLsbD_field, hi, decide_true, Bool.true_and]

theorem bit_or (a b : Word) (i : Nat) : bit (a ||| b) i = (bit a i || bit b i) := by
  simp only [bit, BitVec.getLsbD_or]

theorem bit_and (a b : Word) (i : Nat) : bit (a &&& b) i = (bit a i && bit b i) := by
  simp only [bit, BitVec.getLsbD_and]

theorem bit_place {n : Nat} (v : BitVec n) (lo i : Nat) :
    bit (place v lo) i = (decide (i < 32) && (decide (lo ≤ i) && v.getLsbD (i - lo))) :=
  getLsbD_place v lo i

theorem bit_literal (n i : Nat) : bit (BitVec.ofNat 32 n) i = (decide (i < 32) && n.testBit i) := by
  rw [bit, BitVec.getLsbD_ofNat]

/-- A field is read back from where it was placed. -/
theorem field_place {n : Nat} (v : BitVec n) (lo : Nat) (h : lo + n ≤ 32) : field (place v lo) lo n = v := by
  apply BitVec.eq_of_getLsbD_eq
  intro i hi
  rw [getLsbD_field, getLsbD_place]
  have h1 : lo + i < 32 := by omega
  simp [hi, h1]

/-- A placed field does not reach bits outside its place. -/
theorem field_place_of_disjoint {m : Nat} (v : BitVec m) (at_ lo n : Nat) (h : lo + n ≤ at_ ∨ at_ + m ≤ lo) :
    field (place v at_) lo n = 0#n := by
  apply BitVec.eq_of_getLsbD_eq
  intro i hi
  rw [getLsbD_field, getLsbD_place, BitVec.getLsbD_zero]
  rcases h with h | h
  · have : ¬ at_ ≤ lo + i := by omega
    simp [this]
  · rw [BitVec.getLsbD_of_ge v (lo + i - at_) (by omega)]
    simp

/-- A placed bit is read back from where it was placed. -/
theorem bit_place_ofBool (b : Bool) (i : Nat) (h : i < 32) : bit (place (BitVec.ofBool b) i) i = b := by
  rw [bit, getLsbD_place]
  cases b <;> simp [h]

/-- A placed field does not reach a bit outside its place. -/
theorem bit_place_of_disjoint {m : Nat} (v : BitVec m) (at_ i : Nat) (h : i < at_ ∨ at_ + m ≤ i) :
    bit (place v at_) i = false := by
  rw [bit, getLsbD_place]
  rcases h with h | h
  · simp [Nat.not_le.mpr h]
  · rw [BitVec.getLsbD_of_ge v (i - at_) (by omega)]
    simp

/-- The number of a placed field. -/
theorem toNat_place {n : Nat} (v : BitVec n) (lo : Nat) (h : lo + n ≤ 32) : (place v lo).toNat = v.toNat * 2 ^ lo := by
  have hv : v.toNat < 2 ^ 32 := Nat.lt_of_lt_of_le v.isLt (Nat.pow_le_pow_right (by decide) (by omega))
  unfold place
  rw [BitVec.toNat_shiftLeft, BitVec.toNat_setWidth, Nat.mod_eq_of_lt hv, Nat.shiftLeft_eq]
  apply Nat.mod_eq_of_lt
  calc v.toNat * 2 ^ lo < 2 ^ n * 2 ^ lo := Nat.mul_lt_mul_of_pos_right v.isLt (Nat.two_pow_pos _)
    _ = 2 ^ (n + lo) := (Nat.pow_add ..).symm
    _ ≤ 2 ^ 32 := Nat.pow_le_pow_right (by decide) (by omega)

/-- A field placed below everything a word holds adds its number to the word's. -/
theorem toNat_or_place {n : Nat} (a : Word) (v : BitVec n) (lo k q : Nat) (h : lo + n ≤ 32) (ha : a.toNat = q * 2 ^ k)
    (hk : lo + n ≤ k) : (a ||| place v lo).toNat = a.toNat + v.toNat * 2 ^ lo := by
  have hv : v.toNat * 2 ^ lo < 2 ^ k := by
    calc v.toNat * 2 ^ lo < 2 ^ n * 2 ^ lo := Nat.mul_lt_mul_of_pos_right v.isLt (Nat.two_pow_pos _)
      _ = 2 ^ (n + lo) := (Nat.pow_add ..).symm
      _ ≤ 2 ^ k := Nat.pow_le_pow_right (by decide) (by omega)
  rw [BitVec.toNat_or, toNat_place v lo h, ha, Nat.mul_comm q]
  exact (Nat.two_pow_add_eq_or_of_lt hv q).symm

/-- Two words are equal if all their bits are. -/
theorem word_eq_of_bits (a b : Word) (h : ∀ i < 32, bit a i = bit b i) : a = b :=
  BitVec.eq_of_getLsbD_eq h

end Sys2Proof
end

