-- ==== Sys2Proof/Laws/State.lean ====
section
/-! SUPPORT. What each named update of the state leaves in each field: one lemma a field, so that no later proof unfolds a
record update. -/

namespace Sys2Proof.Machine

section beginEvent
@[simp] theorem State.beginEvent_status (s : State) : (s.beginEvent).status = s.status := rfl
@[simp] theorem State.beginEvent_txf (s : State) : (s.beginEvent).txf = s.txf := rfl
@[simp] theorem State.beginEvent_timer (s : State) : (s.beginEvent).timer = s.timer := rfl
@[simp] theorem State.beginEvent_rxbuf (s : State) : (s.beginEvent).rxbuf = s.rxbuf := rfl
@[simp] theorem State.beginEvent_diag (s : State) : (s.beginEvent).diag = s.diag := rfl
@[simp] theorem State.beginEvent_running (s : State) : (s.beginEvent).running = s.running := rfl
@[simp] theorem State.beginEvent_fault (s : State) : (s.beginEvent).fault = s.fault := rfl
@[simp] theorem State.beginEvent_halted (s : State) : (s.beginEvent).halted = s.halted := rfl
@[simp] theorem State.beginEvent_events (s : State) : (s.beginEvent).events = s.events := rfl
@[simp] theorem State.beginEvent_out (s : State) : (s.beginEvent).out = [] := rfl
@[simp] theorem State.beginEvent_rdata (s : State) : (s.beginEvent).rdata = none := rfl
end beginEvent

section setRxActive
@[simp] theorem State.setRxActive_status (s : State) : (s.setRxActive).status = { s.status with rxActive := true } := rfl
@[simp] theorem State.setRxActive_txf (s : State) : (s.setRxActive).txf = s.txf := rfl
@[simp] theorem State.setRxActive_timer (s : State) : (s.setRxActive).timer = s.timer := rfl
@[simp] theorem State.setRxActive_rxbuf (s : State) : (s.setRxActive).rxbuf = s.rxbuf := rfl
@[simp] theorem State.setRxActive_diag (s : State) : (s.setRxActive).diag = s.diag := rfl
@[simp] theorem State.setRxActive_running (s : State) : (s.setRxActive).running = s.running := rfl
@[simp] theorem State.setRxActive_fault (s : State) : (s.setRxActive).fault = s.fault := rfl
@[simp] theorem State.setRxActive_halted (s : State) : (s.setRxActive).halted = s.halted := rfl
@[simp] theorem State.setRxActive_events (s : State) : (s.setRxActive).events = s.events := rfl
@[simp] theorem State.setRxActive_out (s : State) : (s.setRxActive).out = s.out := rfl
@[simp] theorem State.setRxActive_rdata (s : State) : (s.setRxActive).rdata = s.rdata := rfl
end setRxActive

section setTxActive
@[simp] theorem State.setTxActive_status (s : State) : (s.setTxActive).status = { s.status with txActive := true } := rfl
@[simp] theorem State.setTxActive_txf (s : State) : (s.setTxActive).txf = s.txf := rfl
@[simp] theorem State.setTxActive_timer (s : State) : (s.setTxActive).timer = s.timer := rfl
@[simp] theorem State.setTxActive_rxbuf (s : State) : (s.setTxActive).rxbuf = s.rxbuf := rfl
@[simp] theorem State.setTxActive_diag (s : State) : (s.setTxActive).diag = s.diag := rfl
@[simp] theorem State.setTxActive_running (s : State) : (s.setTxActive).running = s.running := rfl
@[simp] theorem State.setTxActive_fault (s : State) : (s.setTxActive).fault = s.fault := rfl
@[simp] theorem State.setTxActive_halted (s : State) : (s.setTxActive).halted = s.halted := rfl
@[simp] theorem State.setTxActive_events (s : State) : (s.setTxActive).events = s.events := rfl
@[simp] theorem State.setTxActive_out (s : State) : (s.setTxActive).out = s.out := rfl
@[simp] theorem State.setTxActive_rdata (s : State) : (s.setTxActive).rdata = s.rdata := rfl
end setTxActive

section setTxQueued
@[simp] theorem State.setTxQueued_status (s : State) (b : Bool) : (s.setTxQueued b).status = { s.status with txQueued := b } := rfl
@[simp] theorem State.setTxQueued_txf (s : State) (b : Bool) : (s.setTxQueued b).txf = s.txf := rfl
@[simp] theorem State.setTxQueued_timer (s : State) (b : Bool) : (s.setTxQueued b).timer = s.timer := rfl
@[simp] theorem State.setTxQueued_rxbuf (s : State) (b : Bool) : (s.setTxQueued b).rxbuf = s.rxbuf := rfl
@[simp] theorem State.setTxQueued_diag (s : State) (b : Bool) : (s.setTxQueued b).diag = s.diag := rfl
@[simp] theorem State.setTxQueued_running (s : State) (b : Bool) : (s.setTxQueued b).running = s.running := rfl
@[simp] theorem State.setTxQueued_fault (s : State) (b : Bool) : (s.setTxQueued b).fault = s.fault := rfl
@[simp] theorem State.setTxQueued_halted (s : State) (b : Bool) : (s.setTxQueued b).halted = s.halted := rfl
@[simp] theorem State.setTxQueued_events (s : State) (b : Bool) : (s.setTxQueued b).events = s.events := rfl
@[simp] theorem State.setTxQueued_out (s : State) (b : Bool) : (s.setTxQueued b).out = s.out := rfl
@[simp] theorem State.setTxQueued_rdata (s : State) (b : Bool) : (s.setTxQueued b).rdata = s.rdata := rfl
end setTxQueued

section clearFlags
@[simp] theorem State.clearFlags_status (s : State) (mask : ClearMask) : (s.clearFlags mask).status = s.status.clear mask := rfl
@[simp] theorem State.clearFlags_txf (s : State) (mask : ClearMask) : (s.clearFlags mask).txf = s.txf := rfl
@[simp] theorem State.clearFlags_timer (s : State) (mask : ClearMask) : (s.clearFlags mask).timer = s.timer := rfl
@[simp] theorem State.clearFlags_rxbuf (s : State) (mask : ClearMask) : (s.clearFlags mask).rxbuf = s.rxbuf := rfl
@[simp] theorem State.clearFlags_diag (s : State) (mask : ClearMask) : (s.clearFlags mask).diag = s.diag := rfl
@[simp] theorem State.clearFlags_running (s : State) (mask : ClearMask) : (s.clearFlags mask).running = s.running := rfl
@[simp] theorem State.clearFlags_fault (s : State) (mask : ClearMask) : (s.clearFlags mask).fault = s.fault := rfl
@[simp] theorem State.clearFlags_halted (s : State) (mask : ClearMask) : (s.clearFlags mask).halted = s.halted := rfl
@[simp] theorem State.clearFlags_events (s : State) (mask : ClearMask) : (s.clearFlags mask).events = s.events := rfl
@[simp] theorem State.clearFlags_out (s : State) (mask : ClearMask) : (s.clearFlags mask).out = s.out := rfl
@[simp] theorem State.clearFlags_rdata (s : State) (mask : ClearMask) : (s.clearFlags mask).rdata = s.rdata := rfl
end clearFlags

section emit
@[simp] theorem State.emit_status (s : State) (cmd : Command) : (s.emit cmd).status = s.status := rfl
@[simp] theorem State.emit_txf (s : State) (cmd : Command) : (s.emit cmd).txf = s.txf := rfl
@[simp] theorem State.emit_timer (s : State) (cmd : Command) : (s.emit cmd).timer = s.timer := rfl
@[simp] theorem State.emit_rxbuf (s : State) (cmd : Command) : (s.emit cmd).rxbuf = s.rxbuf := rfl
@[simp] theorem State.emit_diag (s : State) (cmd : Command) : (s.emit cmd).diag = s.diag := rfl
@[simp] theorem State.emit_running (s : State) (cmd : Command) : (s.emit cmd).running = s.running := rfl
@[simp] theorem State.emit_fault (s : State) (cmd : Command) : (s.emit cmd).fault = s.fault := rfl
@[simp] theorem State.emit_halted (s : State) (cmd : Command) : (s.emit cmd).halted = s.halted := rfl
@[simp] theorem State.emit_events (s : State) (cmd : Command) : (s.emit cmd).events = s.events := rfl
@[simp] theorem State.emit_out (s : State) (cmd : Command) : (s.emit cmd).out = s.out ++ [cmd.word] := rfl
@[simp] theorem State.emit_rdata (s : State) (cmd : Command) : (s.emit cmd).rdata = s.rdata := rfl
end emit

section arm
@[simp] theorem State.arm_status (s : State) (kind : TimerKind) (d : Nat) : (s.arm kind d).status = s.status := rfl
@[simp] theorem State.arm_txf (s : State) (kind : TimerKind) (d : Nat) : (s.arm kind d).txf = s.txf := rfl
@[simp] theorem State.arm_timer (s : State) (kind : TimerKind) (d : Nat) : (s.arm kind d).timer = { kind := kind, delayUs := BitVec.ofNat 24 d } := rfl
@[simp] theorem State.arm_rxbuf (s : State) (kind : TimerKind) (d : Nat) : (s.arm kind d).rxbuf = s.rxbuf := rfl
@[simp] theorem State.arm_diag (s : State) (kind : TimerKind) (d : Nat) : (s.arm kind d).diag = s.diag := rfl
@[simp] theorem State.arm_running (s : State) (kind : TimerKind) (d : Nat) : (s.arm kind d).running = s.running := rfl
@[simp] theorem State.arm_fault (s : State) (kind : TimerKind) (d : Nat) : (s.arm kind d).fault = s.fault := rfl
@[simp] theorem State.arm_halted (s : State) (kind : TimerKind) (d : Nat) : (s.arm kind d).halted = s.halted := rfl
@[simp] theorem State.arm_events (s : State) (kind : TimerKind) (d : Nat) : (s.arm kind d).events = s.events := rfl
@[simp] theorem State.arm_out (s : State) (kind : TimerKind) (d : Nat) : (s.arm kind d).out = s.out ++ [(Command.armTimer kind (BitVec.ofNat 24 d)).word] := rfl
@[simp] theorem State.arm_rdata (s : State) (kind : TimerKind) (d : Nat) : (s.arm kind d).rdata = s.rdata := rfl
end arm

section emptyTimer
@[simp] theorem State.emptyTimer_status (s : State) : (s.emptyTimer).status = s.status := rfl
@[simp] theorem State.emptyTimer_txf (s : State) : (s.emptyTimer).txf = s.txf := rfl
@[simp] theorem State.emptyTimer_timer (s : State) : (s.emptyTimer).timer = { kind := .none, delayUs := 0 } := rfl
@[simp] theorem State.emptyTimer_rxbuf (s : State) : (s.emptyTimer).rxbuf = s.rxbuf := rfl
@[simp] theorem State.emptyTimer_diag (s : State) : (s.emptyTimer).diag = s.diag := rfl
@[simp] theorem State.emptyTimer_running (s : State) : (s.emptyTimer).running = s.running := rfl
@[simp] theorem State.emptyTimer_fault (s : State) : (s.emptyTimer).fault = s.fault := rfl
@[simp] theorem State.emptyTimer_halted (s : State) : (s.emptyTimer).halted = s.halted := rfl
@[simp] theorem State.emptyTimer_events (s : State) : (s.emptyTimer).events = s.events := rfl
@[simp] theorem State.emptyTimer_out (s : State) : (s.emptyTimer).out = s.out := rfl
@[simp] theorem State.emptyTimer_rdata (s : State) : (s.emptyTimer).rdata = s.rdata := rfl
end emptyTimer

section countLoError
@[simp] theorem State.countLoError_status (s : State) (c : Config) : (s.countLoError c).status = s.status := rfl
@[simp] theorem State.countLoError_txf (s : State) (c : Config) : (s.countLoError c).txf = s.txf := rfl
@[simp] theorem State.countLoError_timer (s : State) (c : Config) : (s.countLoError c).timer = s.timer := rfl
@[simp] theorem State.countLoError_rxbuf (s : State) (c : Config) : (s.countLoError c).rxbuf = s.rxbuf := rfl
@[simp] theorem State.countLoError_diag (s : State) (c : Config) : (s.countLoError c).diag = { s.diag with loError := inc c s.diag.loError } := rfl
@[simp] theorem State.countLoError_running (s : State) (c : Config) : (s.countLoError c).running = s.running := rfl
@[simp] theorem State.countLoError_fault (s : State) (c : Config) : (s.countLoError c).fault = s.fault := rfl
@[simp] theorem State.countLoError_halted (s : State) (c : Config) : (s.countLoError c).halted = s.halted := rfl
@[simp] theorem State.countLoError_events (s : State) (c : Config) : (s.countLoError c).events = s.events := rfl
@[simp] theorem State.countLoError_out (s : State) (c : Config) : (s.countLoError c).out = s.out := rfl
@[simp] theorem State.countLoError_rdata (s : State) (c : Config) : (s.countLoError c).rdata = s.rdata := rfl
end countLoError

section countTimeout
@[simp] theorem State.countTimeout_status (s : State) (c : Config) : (s.countTimeout c).status = s.status := rfl
@[simp] theorem State.countTimeout_txf (s : State) (c : Config) : (s.countTimeout c).txf = s.txf := rfl
@[simp] theorem State.countTimeout_timer (s : State) (c : Config) : (s.countTimeout c).timer = s.timer := rfl
@[simp] theorem State.countTimeout_rxbuf (s : State) (c : Config) : (s.countTimeout c).rxbuf = s.rxbuf := rfl
@[simp] theorem State.countTimeout_diag (s : State) (c : Config) : (s.countTimeout c).diag = { s.diag with timeoutError := inc c s.diag.timeoutError } := rfl
@[simp] theorem State.countTimeout_running (s : State) (c : Config) : (s.countTimeout c).running = s.running := rfl
@[simp] theorem State.countTimeout_fault (s : State) (c : Config) : (s.countTimeout c).fault = s.fault := rfl
@[simp] theorem State.countTimeout_halted (s : State) (c : Config) : (s.countTimeout c).halted = s.halted := rfl
@[simp] theorem State.countTimeout_events (s : State) (c : Config) : (s.countTimeout c).events = s.events := rfl
@[simp] theorem State.countTimeout_out (s : State) (c : Config) : (s.countTimeout c).out = s.out := rfl
@[simp] theorem State.countTimeout_rdata (s : State) (c : Config) : (s.countTimeout c).rdata = s.rdata := rfl
end countTimeout

section countUartError
@[simp] theorem State.countUartError_status (s : State) (c : Config) : (s.countUartError c).status = s.status := rfl
@[simp] theorem State.countUartError_txf (s : State) (c : Config) : (s.countUartError c).txf = s.txf := rfl
@[simp] theorem State.countUartError_timer (s : State) (c : Config) : (s.countUartError c).timer = s.timer := rfl
@[simp] theorem State.countUartError_rxbuf (s : State) (c : Config) : (s.countUartError c).rxbuf = s.rxbuf := rfl
@[simp] theorem State.countUartError_diag (s : State) (c : Config) : (s.countUartError c).diag = { s.diag with uartError := inc c s.diag.uartError } := rfl
@[simp] theorem State.countUartError_running (s : State) (c : Config) : (s.countUartError c).running = s.running := rfl
@[simp] theorem State.countUartError_fault (s : State) (c : Config) : (s.countUartError c).fault = s.fault := rfl
@[simp] theorem State.countUartError_halted (s : State) (c : Config) : (s.countUartError c).halted = s.halted := rfl
@[simp] theorem State.countUartError_events (s : State) (c : Config) : (s.countUartError c).events = s.events := rfl
@[simp] theorem State.countUartError_out (s : State) (c : Config) : (s.countUartError c).out = s.out := rfl
@[simp] theorem State.countUartError_rdata (s : State) (c : Config) : (s.countUartError c).rdata = s.rdata := rfl
end countUartError

section countReceived
@[simp] theorem State.countReceived_status (s : State) (c : Config) : (s.countReceived c).status = s.status := rfl
@[simp] theorem State.countReceived_txf (s : State) (c : Config) : (s.countReceived c).txf = s.txf := rfl
@[simp] theorem State.countReceived_timer (s : State) (c : Config) : (s.countReceived c).timer = s.timer := rfl
@[simp] theorem State.countReceived_rxbuf (s : State) (c : Config) : (s.countReceived c).rxbuf = s.rxbuf := rfl
@[simp] theorem State.countReceived_diag (s : State) (c : Config) : (s.countReceived c).diag = { s.diag with packetsReceived := inc c s.diag.packetsReceived } := rfl
@[simp] theorem State.countReceived_running (s : State) (c : Config) : (s.countReceived c).running = s.running := rfl
@[simp] theorem State.countReceived_fault (s : State) (c : Config) : (s.countReceived c).fault = s.fault := rfl
@[simp] theorem State.countReceived_halted (s : State) (c : Config) : (s.countReceived c).halted = s.halted := rfl
@[simp] theorem State.countReceived_events (s : State) (c : Config) : (s.countReceived c).events = s.events := rfl
@[simp] theorem State.countReceived_out (s : State) (c : Config) : (s.countReceived c).out = s.out := rfl
@[simp] theorem State.countReceived_rdata (s : State) (c : Config) : (s.countReceived c).rdata = s.rdata := rfl
end countReceived

section countDropped
@[simp] theorem State.countDropped_status (s : State) (c : Config) : (s.countDropped c).status = s.status := rfl
@[simp] theorem State.countDropped_txf (s : State) (c : Config) : (s.countDropped c).txf = s.txf := rfl
@[simp] theorem State.countDropped_timer (s : State) (c : Config) : (s.countDropped c).timer = s.timer := rfl
@[simp] theorem State.countDropped_rxbuf (s : State) (c : Config) : (s.countDropped c).rxbuf = s.rxbuf := rfl
@[simp] theorem State.countDropped_diag (s : State) (c : Config) : (s.countDropped c).diag = { s.diag with packetsDropped := inc c s.diag.packetsDropped } := rfl
@[simp] theorem State.countDropped_running (s : State) (c : Config) : (s.countDropped c).running = s.running := rfl
@[simp] theorem State.countDropped_fault (s : State) (c : Config) : (s.countDropped c).fault = s.fault := rfl
@[simp] theorem State.countDropped_halted (s : State) (c : Config) : (s.countDropped c).halted = s.halted := rfl
@[simp] theorem State.countDropped_events (s : State) (c : Config) : (s.countDropped c).events = s.events := rfl
@[simp] theorem State.countDropped_out (s : State) (c : Config) : (s.countDropped c).out = s.out := rfl
@[simp] theorem State.countDropped_rdata (s : State) (c : Config) : (s.countDropped c).rdata = s.rdata := rfl
end countDropped

section stopped
@[simp] theorem State.stopped_status (s : State) (cause : StopCause) (cmds : List Command) : (s.stopped cause cmds).status = s.status := rfl
@[simp] theorem State.stopped_txf (s : State) (cause : StopCause) (cmds : List Command) : (s.stopped cause cmds).txf = s.txf := rfl
@[simp] theorem State.stopped_timer (s : State) (cause : StopCause) (cmds : List Command) : (s.stopped cause cmds).timer = s.timer := rfl
@[simp] theorem State.stopped_rxbuf (s : State) (cause : StopCause) (cmds : List Command) : (s.stopped cause cmds).rxbuf = s.rxbuf := rfl
@[simp] theorem State.stopped_diag (s : State) (cause : StopCause) (cmds : List Command) : (s.stopped cause cmds).diag = s.diag := rfl
@[simp] theorem State.stopped_running (s : State) (cause : StopCause) (cmds : List Command) : (s.stopped cause cmds).running = s.running := rfl
@[simp] theorem State.stopped_fault (s : State) (cause : StopCause) (cmds : List Command) : (s.stopped cause cmds).fault = cause := rfl
@[simp] theorem State.stopped_halted (s : State) (cause : StopCause) (cmds : List Command) : (s.stopped cause cmds).halted = true := rfl
@[simp] theorem State.stopped_events (s : State) (cause : StopCause) (cmds : List Command) : (s.stopped cause cmds).events = s.events := rfl
@[simp] theorem State.stopped_out (s : State) (cause : StopCause) (cmds : List Command) : (s.stopped cause cmds).out = cmds.map Command.word := rfl
@[simp] theorem State.stopped_rdata (s : State) (cause : StopCause) (cmds : List Command) : (s.stopped cause cmds).rdata = none := rfl
end stopped

section offer
@[simp] theorem State.offer_status (s : State) (w : Word) : (s.offer w).status = s.status := rfl
@[simp] theorem State.offer_txf (s : State) (w : Word) : (s.offer w).txf = s.txf := rfl
@[simp] theorem State.offer_timer (s : State) (w : Word) : (s.offer w).timer = s.timer := rfl
@[simp] theorem State.offer_rxbuf (s : State) (w : Word) : (s.offer w).rxbuf = s.rxbuf := rfl
@[simp] theorem State.offer_diag (s : State) (w : Word) : (s.offer w).diag = s.diag := rfl
@[simp] theorem State.offer_running (s : State) (w : Word) : (s.offer w).running = s.running := rfl
@[simp] theorem State.offer_fault (s : State) (w : Word) : (s.offer w).fault = s.fault := rfl
@[simp] theorem State.offer_halted (s : State) (w : Word) : (s.offer w).halted = s.halted := rfl
@[simp] theorem State.offer_events (s : State) (w : Word) : (s.offer w).events = w :: s.events := rfl
@[simp] theorem State.offer_out (s : State) (w : Word) : (s.offer w).out = s.out := rfl
@[simp] theorem State.offer_rdata (s : State) (w : Word) : (s.offer w).rdata = s.rdata := rfl
end offer

@[simp] theorem Status.clear_rxActive (f : Status) (m : ClearMask) : (f.clear m).rxActive = (f.rxActive && !m.rx) := rfl
@[simp] theorem Status.clear_txActive (f : Status) (m : ClearMask) : (f.clear m).txActive = (f.txActive && !m.tx) := rfl
@[simp] theorem Status.clear_txQueued (f : Status) (m : ClearMask) : (f.clear m).txQueued = f.txQueued := rfl
@[simp] theorem ClearMask.nothing_rx : ClearMask.nothing.rx = false := rfl
@[simp] theorem ClearMask.nothing_tx : ClearMask.nothing.tx = false := rfl
@[simp] theorem ClearMask.rxActive_rx : ClearMask.rxActive.rx = true := rfl
@[simp] theorem ClearMask.rxActive_tx : ClearMask.rxActive.tx = false := rfl
@[simp] theorem ClearMask.txActive_rx : ClearMask.txActive.rx = false := rfl
@[simp] theorem ClearMask.txActive_tx : ClearMask.txActive.tx = true := rfl

end Sys2Proof.Machine
end

