-- ==== Sys2Proof/Laws/Ops.lean ====
section
/-! SUPPORT. Once for each shared operation, everything it can do: the checks an event begins with, the stop, the counter
step, and the retime with the two paths that end in it. -/

namespace Sys2Proof.Machine

/-- What an event that answers a next state passed and ran (R238 check 1). -/
theorem takeEvent_next {s t : State} {run : State → Result} (h : takeEvent s run = .next t) :
    s.halted = false ∧ run s.beginEvent = .next t := by
  unfold takeEvent at h
  split at h
  · cases h
  · rename_i hh
    exact ⟨by simpa using hh, h⟩

/-- A block that is not halted runs the event. -/
theorem takeEvent_live {s : State} (run : State → Result) (h : s.halted = false) :
    takeEvent s run = run s.beginEvent := by
  rw [takeEvent, h]
  rfl

/-- A halted block has no step (R233). -/
theorem takeEvent_halted {s : State} (run : State → Result) (h : s.halted = true) :
    takeEvent s run = .fault .halted := by
  rw [takeEvent, if_pos h]

/-- What an event that answers a next state passed: it stopped the block before `INIT`, or it ran (R238 checks 1 and 5). -/
theorem takeRunningEvent_next {s t : State} {run : State → Result} (h : takeRunningEvent s run = .next t) :
    s.halted = false ∧ (s.running = false ∧ t = s.beginEvent.stopped .envNotRunning [] ∨
      s.running = true ∧ run s.beginEvent = .next t) := by
  obtain ⟨hh, h⟩ := takeEvent_next h
  refine ⟨hh, ?_⟩
  cases hr : s.running
  · rw [State.beginEvent_running, hr] at h
    exact .inl ⟨rfl, by cases h; rfl⟩
  · rw [State.beginEvent_running, hr] at h
    exact .inr ⟨rfl, h⟩

/-- A running block runs the event. -/
theorem takeRunningEvent_running {s : State} (run : State → Result) (h : s.halted = false) (hr : s.running = true) :
    takeRunningEvent s run = run s.beginEvent := by
  rw [takeRunningEvent, takeEvent_live _ h, State.beginEvent_running, hr]
  rfl

/-- Before `INIT` the event is `EnvFault(8)` (R238 check 5). -/
theorem takeRunningEvent_not_running {s : State} (run : State → Result) (h : s.halted = false) (hr : s.running = false) :
    takeRunningEvent s run = .next (s.beginEvent.stopped .envNotRunning []) := by
  rw [takeRunningEvent, takeEvent_live _ h, State.beginEvent_running, hr]
  rfl

/-- A stop hides what the event's beginning cleared. -/
@[simp] theorem State.stopped_beginEvent (s : State) (cause : StopCause) (cmds : List Command) :
    s.beginEvent.stopped cause cmds = s.stopped cause cmds := rfl

/-- The number a counter holds after an increment (R26). -/
theorem toNat_inc (c : Config) (n : Word) : (inc c n).toNat = (n.toNat + 1) % 2 ^ c.cntBits := by
  have hc : c.cntBits ≤ 32 := by
    have := c.valid
    simp only [Params.wf, Bool.and_eq_true, decide_eq_true_eq] at this
    exact this.2
  rw [inc, BitVec.toNat_ofNat]
  exact Nat.mod_eq_of_lt
    (Nat.lt_of_lt_of_le (Nat.mod_lt _ (Nat.two_pow_pos _)) (Nat.pow_le_pow_right (by decide) hc))

/-- A counter stays inside its width (R26). -/
theorem inc_lt (c : Config) (n : Word) : (inc c n).toNat < 2 ^ c.cntBits := by
  rw [toNat_inc]
  exact Nat.mod_lt _ (Nat.two_pow_pos _)

/-- A retime that finds a reception after the clear only clears (R162, first row). -/
theorem State.retime_receiving (s : State) (c : Config) (mask : ClearMask) (rnd : Byte)
    (h : (s.status.clear mask).rxActive = true) : s.retime c mask rnd = s.clearFlags mask := by
  simp only [State.retime, State.clearFlags_status, h, if_true]

/-- A retime that finds a pending transmission and no activity arms the flush (R162, second row). -/
theorem State.retime_pending (s : State) (c : Config) (mask : ClearMask) (rnd : Byte)
    (h : (s.status.clear mask).rxActive = false)
    (h' : ((s.status.clear mask).txQueued && !(s.status.clear mask).txActive) = true) :
    s.retime c mask rnd = (s.clearFlags mask).arm .flush (backoff c rnd) := by
  simp only [State.retime, State.clearFlags_status, h, h', Bool.false_eq_true, if_false, if_true]

/-- Every other retime arms the idle tick (R162, third and fourth rows). -/
theorem State.retime_idle (s : State) (c : Config) (mask : ClearMask) (rnd : Byte)
    (h : (s.status.clear mask).rxActive = false)
    (h' : ((s.status.clear mask).txQueued && !(s.status.clear mask).txActive) = false) :
    s.retime c mask rnd = (s.clearFlags mask).arm .tick c.tickUs := by
  simp only [State.retime, State.clearFlags_status, h, h', Bool.false_eq_true, if_false]

/-- Everything a retime can do: only `STATUS`, `TIMER` and the output change. -/
theorem State.retime_cases (s : State) (c : Config) (mask : ClearMask) (rnd : Byte) :
    ((s.status.clear mask).rxActive = true ∧ s.retime c mask rnd = s.clearFlags mask) ∨
    ((s.status.clear mask).rxActive = false ∧
      ((s.status.clear mask).txQueued && !(s.status.clear mask).txActive) = true ∧
      s.retime c mask rnd = (s.clearFlags mask).arm .flush (backoff c rnd)) ∨
    ((s.status.clear mask).rxActive = false ∧
      ((s.status.clear mask).txQueued && !(s.status.clear mask).txActive) = false ∧
      s.retime c mask rnd = (s.clearFlags mask).arm .tick c.tickUs) := by
  cases h : (s.status.clear mask).rxActive
  · cases h' : ((s.status.clear mask).txQueued && !(s.status.clear mask).txActive)
    · exact .inr (.inr ⟨rfl, rfl, s.retime_idle c mask rnd h h'⟩)
    · exact .inr (.inl ⟨rfl, rfl, s.retime_pending c mask rnd h h'⟩)
  · exact .inl ⟨rfl, s.retime_receiving c mask rnd h⟩

section retimeFields
variable (s : State) (c : Config) (mask : ClearMask) (rnd : Byte)

/-- A retime leaves the flags its mask leaves, whatever it arms (R160). -/
@[simp] theorem State.retime_status : (s.retime c mask rnd).status = s.status.clear mask := by
  rcases s.retime_cases c mask rnd with ⟨_, h⟩ | ⟨_, _, h⟩ | ⟨_, _, h⟩ <;> simp [h]

@[simp] theorem State.retime_txf : (s.retime c mask rnd).txf = s.txf := by
  rcases s.retime_cases c mask rnd with ⟨_, h⟩ | ⟨_, _, h⟩ | ⟨_, _, h⟩ <;> simp [h]

@[simp] theorem State.retime_rxbuf : (s.retime c mask rnd).rxbuf = s.rxbuf := by
  rcases s.retime_cases c mask rnd with ⟨_, h⟩ | ⟨_, _, h⟩ | ⟨_, _, h⟩ <;> simp [h]

@[simp] theorem State.retime_diag : (s.retime c mask rnd).diag = s.diag := by
  rcases s.retime_cases c mask rnd with ⟨_, h⟩ | ⟨_, _, h⟩ | ⟨_, _, h⟩ <;> simp [h]

@[simp] theorem State.retime_running : (s.retime c mask rnd).running = s.running := by
  rcases s.retime_cases c mask rnd with ⟨_, h⟩ | ⟨_, _, h⟩ | ⟨_, _, h⟩ <;> simp [h]

@[simp] theorem State.retime_fault : (s.retime c mask rnd).fault = s.fault := by
  rcases s.retime_cases c mask rnd with ⟨_, h⟩ | ⟨_, _, h⟩ | ⟨_, _, h⟩ <;> simp [h]

@[simp] theorem State.retime_halted : (s.retime c mask rnd).halted = s.halted := by
  rcases s.retime_cases c mask rnd with ⟨_, h⟩ | ⟨_, _, h⟩ | ⟨_, _, h⟩ <;> simp [h]

@[simp] theorem State.retime_events : (s.retime c mask rnd).events = s.events := by
  rcases s.retime_cases c mask rnd with ⟨_, h⟩ | ⟨_, _, h⟩ | ⟨_, _, h⟩ <;> simp [h]

@[simp] theorem State.retime_rdata : (s.retime c mask rnd).rdata = s.rdata := by
  rcases s.retime_cases c mask rnd with ⟨_, h⟩ | ⟨_, _, h⟩ | ⟨_, _, h⟩ <;> simp [h]

end retimeFields

end Sys2Proof.Machine
end

