-- ==== Sys2Proof/Laws/Events.lean ====
section
/-! SUPPORT. The machine of the defaults is the machine of every configuration at the defaults, and one inversion lemma an
event: if it answers next t, then the block was not halted, and it stopped with one of the event's causes or had the
event's effect. -/

namespace Sys2Proof.Machine

/-- `exec` is the default configuration's events. -/
theorem exec_eq_eventOf (i : Instr) (s : State) : exec i s = eventOf defaultConfig i s := by
  cases i <;> rfl

/-- `step` is the default configuration's step. -/
theorem step_eq_stepOf (s : State) : step s = stepOf defaultConfig s := by
  rw [step, stepOf, takeNext, takeNext]
  simp only [exec_eq_eventOf]

/-- What a step that answers a next state did: it waited, it stopped on an illegal word, or it ran an event. -/
theorem takeNext_next {run : Instr → State → Result} {s t : State} (h : takeNext run s = .next t) :
    s.halted = false ∧
      ((s.events = [] ∧ t = s) ∨
       (∃ w rest, s.events = w :: rest ∧ decode w = none ∧
          t = { s with events := rest }.stopped .illegalEvent []) ∨
       (∃ w rest i, s.events = w :: rest ∧ decode w = some i ∧ run i { s with events := rest } = .next t)) := by
  unfold takeNext at h
  split at h
  · cases h
  · rename_i hh
    refine ⟨by simpa using hh, ?_⟩
    split at h
    · rename_i he
      exact .inl ⟨he, by cases h; rfl⟩
    · rename_i w rest he
      split at h
      · rename_i i hd
        exact .inr (.inr ⟨w, rest, i, he, hd, h⟩)
      · rename_i hd
        exact .inr (.inl ⟨w, rest, he, hd, by cases h; rfl⟩)

section inversion
variable {c : Config} {s t : State}

theorem initEvent_next {rnd : Byte} (h : initEvent c rnd s = .next t) :
    s.halted = false ∧ (s.running = true ∧ t = s.stopped .envReinit [] ∨
      s.running = false ∧ t = initEffect c rnd s.beginEvent) := by
  obtain ⟨hh, h⟩ := takeEvent_next h
  refine ⟨hh, ?_⟩
  split at h
  · rename_i hr
    exact .inl ⟨hr, by cases h; rfl⟩
  · rename_i hr
    exact .inr ⟨by simpa using hr, by cases h; rfl⟩

theorem rdEvent_next {addr : BitVec 12} (h : rdEvent c addr s = .next t) :
    s.halted = false ∧ t = { s.beginEvent with rdata := some (regmap c addr s.beginEvent) } := by
  obtain ⟨hh, h⟩ := takeEvent_next h
  exact ⟨hh, by cases h; rfl⟩

theorem pktReadyEvent_next {rnd : Byte} (h : pktReadyEvent c rnd s = .next t) :
    s.halted = false ∧ (s.running = false ∧ t = s.stopped .envNotRunning [] ∨
      s.running = true ∧ t = pktReadyEffect c rnd s.beginEvent) := by
  obtain ⟨hh, ⟨hr, h⟩ | ⟨hr, h⟩⟩ := takeRunningEvent_next h
  · exact ⟨hh, .inl ⟨hr, h⟩⟩
  · exact ⟨hh, .inr ⟨hr, by cases h; rfl⟩⟩

theorem fallEvent_next {w : Bool} {rnd : Byte} (h : fallEvent c w rnd s = .next t) :
    s.halted = false ∧ (s.running = false ∧ t = s.stopped .envNotRunning [] ∨
      s.running = true ∧ s.status.rxActive = true ∧ t = s.stopped .fatalRxOverlap [.abort .fatalRxOverlap] ∨
      s.running = true ∧ s.status.rxActive = false ∧ s.status.txActive = true ∧
        t = s.stopped .fatalEdgeDuringTx [.abort .fatalEdgeDuringTx] ∨
      s.running = true ∧ s.status.rxActive = false ∧ s.status.txActive = false ∧ t = fallEffect c w rnd s.beginEvent) := by
  obtain ⟨hh, ⟨hr, h⟩ | ⟨hr, h⟩⟩ := takeRunningEvent_next h
  · exact ⟨hh, .inl ⟨hr, h⟩⟩
  · refine ⟨hh, .inr ?_⟩
    split at h
    · rename_i hrx
      exact .inl ⟨hr, hrx, by cases h; rfl⟩
    · rename_i hrx
      have hrx : s.status.rxActive = false := by simpa using hrx
      split at h
      · rename_i htx
        exact .inr (.inl ⟨hr, hrx, htx, by cases h; rfl⟩)
      · rename_i htx
        exact .inr (.inr ⟨hr, hrx, by simpa using htx, by cases h; rfl⟩)

theorem rxbEvent_next {off data : Byte} (h : rxbEvent c off data s = .next t) :
    s.halted = false ∧ (s.running = false ∧ t = s.stopped .envNotRunning [] ∨
      s.running = true ∧ s.status.rxActive = false ∧ t = s.stopped .envRxDataUnarmed [] ∨
      s.running = true ∧ s.status.rxActive = true ∧ c.frameMax ≤ off.toNat ∧ t = s.stopped .envBadField [] ∨
      s.running = true ∧ s.status.rxActive = true ∧ off.toNat < c.frameMax ∧
        t = { s.beginEvent with rxbuf := s.rxbuf.write off.toNat data }) := by
  obtain ⟨hh, ⟨hr, h⟩ | ⟨hr, h⟩⟩ := takeRunningEvent_next h
  · exact ⟨hh, .inl ⟨hr, h⟩⟩
  · refine ⟨hh, .inr ?_⟩
    split at h
    · rename_i hrx
      exact .inl ⟨hr, by simpa using hrx, by cases h; rfl⟩
    · rename_i hrx
      have hrx : s.status.rxActive = true := by simpa using hrx
      split at h
      · rename_i ho
        exact .inr (.inl ⟨hr, hrx, ho, by cases h; rfl⟩)
      · rename_i ho
        exact .inr (.inr ⟨hr, hrx, Nat.lt_of_not_le ho, by cases h; rfl⟩)

theorem rxdoneEvent_next {e : Bool} {left : Byte} {dacc : Bool} {rnd : Byte}
    (h : rxdoneEvent c e left dacc rnd s = .next t) :
    s.halted = false ∧ (s.running = false ∧ t = s.stopped .envNotRunning [] ∨
      s.running = true ∧ s.status.rxActive = false ∧ t = s.stopped .envSpuriousRxDone [] ∨
      s.running = true ∧ s.status.rxActive = true ∧ c.frameMax < left.toNat ∧ t = s.stopped .envBadField [] ∨
      s.running = true ∧ s.status.rxActive = true ∧ left.toNat ≤ c.frameMax ∧
        t = rxdoneEffect c e left dacc rnd s.beginEvent) := by
  obtain ⟨hh, ⟨hr, h⟩ | ⟨hr, h⟩⟩ := takeRunningEvent_next h
  · exact ⟨hh, .inl ⟨hr, h⟩⟩
  · refine ⟨hh, .inr ?_⟩
    split at h
    · rename_i hrx
      exact .inl ⟨hr, by simpa using hrx, by cases h; rfl⟩
    · rename_i hrx
      have hrx : s.status.rxActive = true := by simpa using hrx
      split at h
      · rename_i ho
        exact .inr (.inl ⟨hr, hrx, ho, by cases h; rfl⟩)
      · rename_i ho
        exact .inr (.inr ⟨hr, hrx, Nat.le_of_not_lt ho, by cases h; rfl⟩)

theorem txdoneEvent_next {rnd : Byte} (h : txdoneEvent c rnd s = .next t) :
    s.halted = false ∧ (s.running = false ∧ t = s.stopped .envNotRunning [] ∨
      s.running = true ∧ s.status.txActive = false ∧ t = s.stopped .envSpuriousTxDone [] ∨
      s.running = true ∧ s.status.txActive = true ∧ t = txdoneEffect c rnd s.beginEvent) := by
  obtain ⟨hh, ⟨hr, h⟩ | ⟨hr, h⟩⟩ := takeRunningEvent_next h
  · exact ⟨hh, .inl ⟨hr, h⟩⟩
  · refine ⟨hh, .inr ?_⟩
    split at h
    · rename_i htx
      exact .inl ⟨hr, by simpa using htx, by cases h; rfl⟩
    · rename_i htx
      exact .inr ⟨hr, by simpa using htx, by cases h; rfl⟩

theorem fireEvent_next {pull stx : Bool} {fsize handle rnd : Byte}
    (h : fireEvent c pull stx fsize handle rnd s = .next t) :
    s.halted = false ∧ (s.running = false ∧ t = s.stopped .envNotRunning [] ∨
      s.running = true ∧ s.timer.kind = .none ∧ t = s.stopped .envSpuriousTimer [] ∨
      s.running = true ∧ s.timer.kind = .tick ∧ s.status.txActive = true ∧
        t = s.stopped .fatalTickDuringTx [.abort .fatalTickDuringTx] ∨
      s.running = true ∧ s.timer.kind ≠ .none ∧ (s.timer.kind = .tick → s.status.txActive = false) ∧
        t = fireEffect c s.timer.kind pull stx fsize handle rnd s.beginEvent) := by
  obtain ⟨hh, ⟨hr, h⟩ | ⟨hr, h⟩⟩ := takeRunningEvent_next h
  · exact ⟨hh, .inl ⟨hr, h⟩⟩
  · refine ⟨hh, .inr ?_⟩
    split at h
    · rename_i hk
      exact .inl ⟨hr, hk, by cases h; rfl⟩
    · rename_i hk
      split at h
      · rename_i ht
        exact .inr (.inl ⟨hr, ht.1, ht.2, by cases h; rfl⟩)
      · rename_i ht
        refine .inr (.inr ⟨hr, hk, fun hkt => ?_, by cases h; rfl⟩)
        cases hx : s.status.txActive
        · rfl
        · exact absurd ⟨hkt, hx⟩ ht

end inversion

end Sys2Proof.Machine
end

