-- ==== Sys2Proof/Laws/Memory.lean ====
section
/-! SUPPORT. The laws of the receive buffer (spec/20_memory.md R50): a read sees the last write of its address, a write
leaves every other address alone, and every operation keeps the canonical form. -/

namespace Sys2Proof.Machine

@[simp] theorem Memory.read_zeroed (a : Nat) : Memory.read Memory.zeroed a = 0 := rfl

@[simp] theorem Memory.wf_zeroed (size : Nat) : Memory.wf size Memory.zeroed = true := rfl

/-- The canonical form of a buffer with a first entry, taken apart. -/
theorem Memory.wf_cons (size a : Nat) (v : Byte) (rest : Memory) :
    Memory.wf size ((a, v) :: rest) = true ↔
      a < size ∧ v ≠ 0 ∧ (∀ cell ∈ rest, a < cell.1) ∧ Memory.wf size rest = true := by
  simp only [Memory.wf, Bool.and_eq_true, decide_eq_true_eq, List.all_eq_true, and_assoc]
  exact Iff.rfl

/-- An address below every listed one reads as an unlisted address. -/
theorem Memory.read_of_forall_lt (m : Memory) (a : Nat) (h : ∀ cell ∈ m, a < cell.1) : m.read a = 0 := by
  induction m with
  | nil => rfl
  | cons cell rest ih =>
    have hne : a ≠ cell.1 := Nat.ne_of_lt (h cell (by simp))
    rw [Memory.read, if_neg hne]
    exact ih fun x hx => h x (List.mem_cons_of_mem _ hx)

/-- A write leaves every other address alone. -/
theorem Memory.read_write_of_ne (m : Memory) (a b : Nat) (v : Byte) (h : b ≠ a) : (m.write a v).read b = m.read b := by
  induction m with
  | nil =>
    unfold Memory.write
    split <;> simp [Memory.read, h]
  | cons cell rest ih =>
    obtain ⟨x, w⟩ := cell
    unfold Memory.write
    split
    · split <;> simp [Memory.read, h]
    · split
      · rename_i hx
        subst hx
        split <;> simp [Memory.read, h]
      · simp only [Memory.read, ih]

/-- A read sees the last write of its address. -/
theorem Memory.read_write_same (size : Nat) (m : Memory) (a : Nat) (v : Byte) (hm : m.wf size = true) :
    (m.write a v).read a = v := by
  induction m with
  | nil =>
    unfold Memory.write
    split
    · rename_i hv; rw [hv]; rfl
    · simp [Memory.read]
  | cons cell rest ih =>
    obtain ⟨x, w⟩ := cell
    obtain ⟨_, _, hlt, hrest⟩ := (Memory.wf_cons size x w rest).mp hm
    unfold Memory.write
    split
    · rename_i hax
      split
      · rename_i hv
        rw [hv]
        refine Memory.read_of_forall_lt _ a fun c hc => ?_
        rcases List.mem_cons.mp hc with rfl | hc
        · exact hax
        · exact Nat.lt_trans hax (hlt c hc)
      · simp [Memory.read]
    · split
      · rename_i hax
        subst hax
        split
        · rename_i hv; rw [hv]; exact Memory.read_of_forall_lt _ _ hlt
        · simp [Memory.read]
      · rename_i hne
        rw [Memory.read, if_neg hne]
        exact ih hrest

/-- Every address a write lists was listed before, or is the one written. -/
theorem Memory.mem_write (m : Memory) (a : Nat) (v : Byte) (cell : Host.Cell) (h : cell ∈ m.write a v) :
    cell.1 = a ∨ cell ∈ m := by
  induction m with
  | nil =>
    unfold Memory.write at h
    split at h
    · cases h
    · exact .inl (by rw [List.mem_singleton.mp h])
  | cons x rest ih =>
    obtain ⟨b, w⟩ := x
    unfold Memory.write at h
    split at h
    · split at h
      · exact .inr h
      · rcases List.mem_cons.mp h with rfl | h
        · exact .inl rfl
        · exact .inr h
    · split at h
      · split at h
        · exact .inr (List.mem_cons_of_mem _ h)
        · rcases List.mem_cons.mp h with rfl | h
          · exact .inl rfl
          · exact .inr (List.mem_cons_of_mem _ h)
      · rcases List.mem_cons.mp h with rfl | h
        · exact .inr (by simp)
        · exact (ih h).imp_right (List.mem_cons_of_mem _)

/-- A write inside the buffer keeps the canonical form. -/
theorem Memory.wf_write (size : Nat) (m : Memory) (a : Nat) (v : Byte) (ha : a < size) (hm : m.wf size = true) :
    (m.write a v).wf size = true := by
  induction m with
  | nil =>
    unfold Memory.write
    split
    · rfl
    · rename_i hv
      exact (Memory.wf_cons ..).mpr ⟨ha, hv, by simp, rfl⟩
  | cons cell rest ih =>
    obtain ⟨b, w⟩ := cell
    obtain ⟨hb, hw, hlt, hrest⟩ := (Memory.wf_cons size b w rest).mp hm
    unfold Memory.write
    split
    · rename_i hab
      split
      · exact hm
      · rename_i hv
        refine (Memory.wf_cons ..).mpr ⟨ha, hv, fun c hc => ?_, hm⟩
        rcases List.mem_cons.mp hc with rfl | hc
        · exact hab
        · exact Nat.lt_trans hab (hlt c hc)
    · split
      · rename_i hab
        subst hab
        split
        · exact hrest
        · rename_i hv
          exact (Memory.wf_cons ..).mpr ⟨ha, hv, hlt, hrest⟩
      · refine (Memory.wf_cons ..).mpr ⟨hb, hw, fun c hc => ?_, ih hrest⟩
        rcases Memory.mem_write rest a v c hc with rfl | hc
        · omega
        · exact hlt c hc

end Sys2Proof.Machine
end

