-- ==== Sys2Proof/Laws/PerInstr.lean ====
section
/-! SUPPORT. One law about the syntax of every event: its word is legal (spec/30_encoding.md R80), which a bit of an
encoding put where its format reserves a 0 would break. -/

namespace Sys2Proof.Laws.EncodeLegal

/-- The word of the event is a legal event word, by the match and mask of the formats. -/
def Statement (i : Instr) : Prop := legal (encode i) = true

theorem holds_of_bits (f : Format) (w : Word) (h : ∀ k < 32, (bit w k && bit f.mask k) = bit f.matchBits k) :
    f.holds w = true := by
  rw [Format.holds, beq_iff_eq]
  exact word_eq_of_bits _ _ fun k hk => by rw [bit_and]; exact h k hk

theorem legal_of_bits (f : Format) (hf : f ∈ formats) (w : Word)
    (h : ∀ k < 32, (bit w k && bit f.mask k) = bit f.matchBits k) : legal w = true :=
  List.any_eq_true.mpr ⟨f, hf, holds_of_bits f w h⟩

theorem init (rnd : Byte) : Statement (.init rnd) := by
  refine legal_of_bits ⟨"INIT", 0x10000000, 0xFFFFFF00⟩ (by decide) _ fun k hk => ?_
  interval_cases k <;> simp [encode, bit_or, bit_place, bit_literal, Nat.testBit]

theorem pktReady (rnd : Byte) : Statement (.pktReady rnd) := by
  refine legal_of_bits ⟨"PKT_READY", 0x20000000, 0xFFFFFF00⟩ (by decide) _ fun k hk => ?_
  interval_cases k <;> simp [encode, bit_or, bit_place, bit_literal, Nat.testBit]

theorem fall (w : Bool) (rnd : Byte) : Statement (.fall w rnd) := by
  refine legal_of_bits ⟨"FALL", 0x30000000, 0xFFFFFE00⟩ (by decide) _ fun k hk => ?_
  interval_cases k <;> simp [encode, bit_or, bit_place, bit_literal, Nat.testBit]

theorem rxb (off data : Byte) : Statement (.rxb off data) := by
  refine legal_of_bits ⟨"RXB", 0x40000000, 0xFF0000FF⟩ (by decide) _ fun k hk => ?_
  interval_cases k <;> simp [encode, bit_or, bit_place, bit_literal, Nat.testBit]

theorem rxdone (e : Bool) (left : Byte) (dacc : Bool) (rnd : Byte) : Statement (.rxdone e left dacc rnd) := by
  refine legal_of_bits ⟨"RXDONE", 0x50000000, 0xFE00FE00⟩ (by decide) _ fun k hk => ?_
  interval_cases k <;> simp [encode, bit_or, bit_place, bit_literal, Nat.testBit]

theorem txdone (rnd : Byte) : Statement (.txdone rnd) := by
  refine legal_of_bits ⟨"TXDONE", 0x60000000, 0xFFFFFF00⟩ (by decide) _ fun k hk => ?_
  interval_cases k <;> simp [encode, bit_or, bit_place, bit_literal, Nat.testBit]

theorem fire (pull stx : Bool) (fsize handle rnd : Byte) : Statement (.fire pull stx fsize handle rnd) := by
  refine legal_of_bits ⟨"FIRE", 0x70000000, 0xF3000000⟩ (by decide) _ fun k hk => ?_
  interval_cases k <;> simp [encode, bit_or, bit_place, bit_literal, Nat.testBit]

theorem rd (addr : BitVec 12) : Statement (.rd addr) := by
  refine legal_of_bits ⟨"RD", 0x80000000, 0xFFFFF000⟩ (by decide) _ fun k hk => ?_
  interval_cases k <;> simp [encode, bit_or, bit_place, bit_literal, Nat.testBit]

end Sys2Proof.Laws.EncodeLegal
end

