-- ==== Sys2Proof/Laws/Safety.lean ====
section
/-! SUPPORT. What the shared operations do, said in the terms of the statements. -/

namespace Sys2Proof.Machine

/-- A retime on a bus that is not receiving after the clear: one record, whichever timer it arms (R162). -/
theorem State.retime_armedAfter (s : State) (c : Config) (mask : ClearMask) (rnd : Byte)
    (h : (s.status.clear mask).rxActive = false) :
    s.retime c mask rnd = { s with
      status := s.status.clear mask
      timer := armedAfter c (s.status.clear mask) rnd
      out := s.out ++ [(armedAfter c (s.status.clear mask) rnd).armWord] } := by
  cases h' : ((s.status.clear mask).txQueued && !(s.status.clear mask).txActive)
  · rw [State.retime_idle _ _ _ _ h h']; simp only [armedAfter, h', Timer.armWord]; rfl
  · rw [State.retime_pending _ _ _ _ h h']; simp only [armedAfter, h', Timer.armWord]; rfl

/-- The header check finds a byte exactly when one of the probed bytes is not 0 (R113). -/
theorem headerPresent_iff (c : Config) (m : Memory) :
    headerPresent c m = true ↔ ∃ a < c.probeBytes, m.read a ≠ 0 := by
  simp [headerPresent, frameBytes]

end Sys2Proof.Machine
end

