-- ==== Sys2Proof/Tests/Slice0.lean ====
section
/-! SUPPORT. Tests. The expected values are those of spec/95_test_vectors.md (the row is named beside each) or of the rule
named; the witnesses show, for each statement with hypotheses, states and operands that meet them, clause by clause. -/

open Sys2Proof Sys2Proof.Machine

namespace Sys2Proof.Tests

/-! ## The checks refuse -/

/-- R9, one ill-formed set of parameters for each constraint. -/
theorem test_parameters_refused :
    Params.wf { defaultParams with hdrBytes := 3, svcSizeOff := 3 } = false ∧
    Params.wf { defaultParams with frameMax := 11 } = false ∧
    Params.wf { defaultParams with frameMax := 256 } = false ∧
    Params.wf { defaultParams with svcSizeOff := 13 } = false ∧
    Params.wf { defaultParams with probeBytes := 253 } = false ∧
    Params.wf { defaultParams with jitterMask := 0x100 } = false ∧
    Params.wf { defaultParams with backoffTargetUs := 103 } = false ∧
    Params.wf { defaultParams with backoffTargetUs := 16777192 } = false ∧
    Params.wf { defaultParams with rxPerByteUs := 62836 } = false ∧
    Params.wf { defaultParams with hdrCheckUs := 16777216 } = false ∧
    Params.wf { defaultParams with tickUs := 16777216 } = false ∧
    Params.wf { defaultParams with waitHighUs := 65536 } = false ∧
    Params.wf { defaultParams with cntBits := 0 } = false ∧
    Params.wf { defaultParams with cntBits := 33 } = false := by decide

/-- R9, the last admitted value beside each refused one. -/
theorem test_parameters_at_the_bounds :
    Params.wf { defaultParams with hdrBytes := 4, svcSizeOff := 4 } = true ∧
    Params.wf { defaultParams with frameMax := 12 } = true ∧
    Params.wf { defaultParams with frameMax := 255 } = true ∧
    Params.wf { defaultParams with probeBytes := 252 } = true ∧
    Params.wf { defaultParams with jitterMask := 0xFF, backoffTargetUs := 168 } = true ∧
    Params.wf { defaultParams with backoffTargetUs := 104 } = true ∧
    Params.wf { defaultParams with backoffTargetUs := 16777191 } = true ∧
    Params.wf { defaultParams with rxPerByteUs := 62835 } = true ∧
    Params.wf { defaultParams with cntBits := 1 } = true := by decide

/-- V-E-1 to V-E-14: words that spell no event. -/
theorem test_illegal_words_refused :
    ([0x00000000, 0x90000000, 0xF0000000, 0x10000100, 0x20800000, 0x30000200, 0x40000001, 0x41000000, 0x52000000,
      0x50000200, 0x60000100, 0x71000000, 0x82000000, 0x80001000] : List Word).all
      (fun w => !legal w && (decode w).isNone) = true := by decide

/-! ## Decoding, from the patterns of R72 to R79 -/

theorem test_decode_init : decode 0b00010000000000000000000010100101 = some (.init 0xA5) := by decide
theorem test_decode_pktReady : decode 0b00100000000000000000000001000000 = some (.pktReady 0x40) := by decide
/-- The maximum words of section 2.1 of the vectors. -/
theorem test_decode_fall : decode 0x300001FF = some (.fall true 0xFF) ∧
    decode 0b00110000000000000000000010000001 = some (.fall false 0x81) := by decide
theorem test_decode_rxb : decode 0x40FFFF00 = some (.rxb 0xFF 0xFF) ∧
    decode 0b01000000000000100000101000000000 = some (.rxb 2 0x0A) := by decide
theorem test_decode_rxdone : decode 0x51FF01FF = some (.rxdone true 0xFF true 0xFF) ∧
    decode 0b01010001111001100000000000100000 = some (.rxdone true 230 false 0x20) := by decide
theorem test_decode_txdone : decode 0b01100000000000000000000000000101 = some (.txdone 0x05) := by decide
theorem test_decode_fire : decode 0x7CFFFFFF = some (.fire true true 0xFF 0xFF 0xFF) ∧
    decode 0b01111000000010100000011100010000 = some (.fire true false 10 7 0x10) ∧
    decode 0b01110100000000110000100100000000 = some (.fire false true 3 9 0) := by decide
theorem test_decode_rd : decode 0x80000FFF = some (.rd 0xFFF) ∧
    decode 0b10000000000000000000000100010101 = some (.rd 0x115) := by decide

/-- The same words as the host's table asks for them. -/
theorem test_decodeTableWord : decodeTableWord 32 0x7C0A0540 = some (.fire true true 10 5 0x40) ∧
    decodeTableWord 32 0x80001000 = none := by decide

/-- The words of the commands in the vectors. -/
theorem test_command_words :
    (Command.startRx 252).word = 0x100000FC ∧ (Command.waitHigh 1000).word = 0x400003E8 ∧
    (Command.armTimer .tick 10000).word = 0x64002710 ∧ (Command.startTx 5 22).word = 0x50050016 ∧
    (Command.dispatch 22).word = 0x90000016 ∧ (Command.frameSent 5).word = 0x80000005 ∧
    (Command.abort .fatalRxOverlap).word = 0xA0000001 ∧ Command.pullFrame.word = 0x70000000 ∧
    Command.flushRx.word = 0x20000000 ∧ Command.disableRx.word = 0x30000000 := by decide

/-- The check value of R14. -/
theorem test_crc16_check_value :
    crc16Ccitt [0x31, 0x32, 0x33, 0x34, 0x35, 0x36, 0x37, 0x38, 0x39] = 0x29B1 := by decide +kernel

/-! ## The starting states of the vectors -/

/-- A running block with these flags, this claimed frame, this timer and this buffer; everything else as after reset. -/
def block (f : Status) (x : TxFrame) (kind : TimerKind) (us : BitVec 24) (m : Memory) : State :=
  { State.reset with running := true, status := f, txf := x, timer := { kind := kind, delayUs := us }, rxbuf := m }

def noFlags : Status := { rxActive := false, txActive := false, txQueued := false }
def noFrame : TxFrame := { valid := false, handle := 0, size := 0 }

/-- `B`: idle. -/
def idle : State := block noFlags noFrame .tick 10000 []
/-- `RX` with this buffer. -/
def receiving (m : Memory) : State := block { noFlags with rxActive := true } noFrame .hdrCheck 250 m
/-- `Q`: a transmission is pending. -/
def pending : State := block { noFlags with txQueued := true } noFrame .flush 111 []
/-- `Q7`, but for its counter: pending, with frame 7 still claimed. -/
def retrying : State := block { noFlags with txQueued := true } { valid := true, handle := 7, size := 10 } .flush 63 []
/-- `TX`: frame 5 is on the wire. -/
def sending : State := block { noFlags with txActive := true } { valid := true, handle := 5, size := 10 } .none 0 []
/-- The frame timeout is armed. -/
def supervised : State := block { noFlags with rxActive := true } noFrame .frameTimeout 204 [(0, 0x12)]
/-- A block stopped by an overlapping start. -/
def stopped : State := { receiving [] with fault := .fatalRxOverlap, halted := true }
/-- The frame F1b of the vectors: 13 bytes, size byte 1. -/
def frame13 : Memory := [(0, 0x4F), (1, 0xA2), (2, 1), (4, 0x11), (5, 0x12), (6, 0x13), (7, 0x14), (8, 0x15), (9, 0x16),
  (10, 0x17), (11, 0x18)]
/-- `frame13` with this flags byte and this service size, and this code (low byte first), made by R14's algorithm. -/
def frame13With (lo hi flags size : Byte) : Memory :=
  ((((frame13.write 0 lo).write 1 hi).write 3 flags).write 12 size)
/-- With a word on the input port. -/
def offered (s : State) (w : Word) : State := { s with events := [w] }

/-! ## One step each -/

/-- The commands, timer and `STATUS` an answer shows, and its cause. -/
def shows (r : Result) (out : List Word) (kind : TimerKind) (us : BitVec 24) (bits : BitVec 3) (cause : StopCause) : Bool :=
  match r with
  | .next t => decide (t.out = out ∧ t.timer = { kind := kind, delayUs := us } ∧ t.status.bits = bits ∧ t.fault = cause)
  | _ => false

/-- The answer is this state. -/
def answers (r : Result) (t : State) : Bool :=
  match r with
  | .next u => decide (u = t)
  | _ => false

/-- V-I-1. -/
theorem test_init : shows (exec (.init 0) State.reset) [0x64002710] .tick 10000 0 .none = true := by decide
/-- V-S-3. -/
theorem test_init_twice : shows (exec (.init 0) idle) [] .tick 10000 0 .envReinit = true := by decide
/-- V-K-1. -/
theorem test_pktReady : shows (exec (.pktReady 0x40) idle) [0x6300006F] .flush 111 4 .none = true := by decide
/-- V-K-7. -/
theorem test_pktReady_receiving :
    shows (exec (.pktReady 0) (receiving [])) [] .hdrCheck 250 5 .none = true := by decide
/-- V-F-3. -/
theorem test_fall_line_low : shows (exec (.fall false 0x10) pending) [0x100000FC, 0x400003E8, 0x30000000, 0x6300003F]
    .flush 63 4 .none = true := by decide
/-- V-F-6. -/
theorem test_fall_during_tx :
    shows (exec (.fall true 0) sending) [0xA0000003] .none 0 2 .fatalEdgeDuringTx = true := by decide
/-- V-B-2 and V-B-3: the last byte of the buffer, and the first outside. -/
theorem test_rxb : answers (exec (.rxb 251 0xFF) (receiving [])) (receiving [(251, 0xFF)]) = true ∧
    shows (exec (.rxb 252 0xFF) (receiving [])) [] .hdrCheck 250 1 .envBadField = true := by decide
/-- V-B-4. -/
theorem test_rxb_unarmed : shows (exec (.rxb 0 1) idle) [] .tick 10000 0 .envRxDataUnarmed = true := by decide
/-- V-D-14. -/
theorem test_rxdone_forwards : shows (exec (.rxdone false 239 true 0) (receiving frame13)) [0x64002710, 0x9000000D]
    .tick 10000 0 .none = true := by decide +kernel
/-- V-D-7: a zero size byte returns silently, an error notwithstanding. -/
theorem test_rxdone_zero_size : answers (exec (.rxdone true 250 true 0) (receiving [(0, 0x12), (1, 0x34)]))
    { idle with rxbuf := [(0, 0x12), (1, 0x34)], out := [0x64002710] } = true := by decide
/-- V-T-1. -/
theorem test_txdone : answers (exec (.txdone 0) sending) { idle with out := [0x80000005, 0x64002710] } = true := by decide
/-- V-T-3. -/
theorem test_txdone_spurious : shows (exec (.txdone 0) idle) [] .tick 10000 0 .envSpuriousTxDone = true := by decide
/-- V-H-4: the size byte 255 is not checked here. -/
theorem test_fire_header_check : shows (exec (.fire false false 0 0 0) (receiving [(2, 0xFF)]))
    [0x20000000, 0x62000CC0] .frameTimeout 3264 1 .none = true := by decide
/-- V-L-3. -/
theorem test_fire_flush_lost_race : answers (exec (.fire true false 10 7 0x10) pending)
    { retrying with diag := { Diag.reset with loError := 1 }, out := [0x70000000, 0x50070016, 0x6300003F] } = true := by
  decide
/-- V-R-16, and V-R-8 with the last byte of the buffer. -/
theorem test_rd : answers (exec (.rd 0x002) sending) { sending with rdata := some 0x80000A05 } = true ∧
    answers (exec (.rd 0x1FB) (receiving [(251, 0xFF)])) { receiving [(251, 0xFF)] with rdata := some 0xFF } = true := by decide
/-- V-R-10: past the buffer. V-R-18: before `INIT`. -/
theorem test_rd_reserved : answers (exec (.rd 0x1FC) (receiving [(251, 0xFF)])) { receiving [(251, 0xFF)] with rdata := some 0 } = true ∧
    answers (exec (.rd 0x001) State.reset) { State.reset with rdata := some 0 } = true := by decide

/-! ## Witnesses -/

theorem inv_idle : Inv defaultConfig idle := by constructor <;> decide
theorem inv_receiving : Inv defaultConfig (receiving [(0, 0x12)]) := by constructor <;> decide
theorem inv_supervised : Inv defaultConfig supervised := by constructor <;> decide
theorem inv_pending : Inv defaultConfig pending := by constructor <;> decide
theorem inv_retrying : Inv defaultConfig retrying := by constructor <;> decide
theorem inv_sending : Inv defaultConfig sending := by constructor <;> decide
theorem inv_stopped : Inv defaultConfig stopped := by constructor <;> decide

theorem witness_ResetLeavesEveryElementZero : stopped.halted = true := by decide
theorem witness_DecodedWordsAreTheirEventsWords : decode 0x7CFFFFFF = some (.fire true true 0xFF 0xFF 0xFF) := by decide
theorem witness_IllegalWordsStopTheBlock :
    legal 0x80000FFF = true ∧ (formats.any (·.holds 0x80000FFF)) = true ∧
    Live State.reset ∧ (offered State.reset 0x80001000).events = 0x80001000 :: [] ∧ legal 0x80001000 = false := by decide
theorem witness_CommandWordsNameOneCommand : (Command.startTx 5 22).word = (Command.startTx 5 22).word := rfl
theorem witness_StepRunsTheNextEvent :
    (offered idle 0x7C0A0540).events = 0x7C0A0540 :: [] ∧ decode 0x7C0A0540 = some (.fire true true 10 5 0x40) := by decide
theorem witness_HaltedBlockTakesNothing : stopped.halted = true := by decide
theorem witness_NoEventNoChange : Live State.reset ∧ State.reset.events = [] := by decide
/-- One event and state for each kind of cause, an undecodable word, and a performed event of each event with a check. -/
theorem witness_ChecksComeInOrder :
    stopped.halted = true ∧
    (Live idle ∧ (offered idle 0xF0000000).events = 0xF0000000 :: [] ∧ decode 0xF0000000 = none) ∧
    firstCause defaultConfig (.fall true 0) (receiving []) = some .fatalRxOverlap ∧
    firstCause defaultConfig (.rxdone false 253 true 0) (receiving []) = some .envBadField ∧
    firstCause defaultConfig (.fire false false 0 0 0) State.reset = some .envNotRunning ∧
    firstCause defaultConfig (.rd 0) State.reset = none ∧
    firstCause defaultConfig (.rxdone false 252 true 0) (receiving []) = none ∧
    Live (receiving []) := by decide
theorem witness_StopsChangeNothingElse : ∃ t, Live (offered (receiving []) 0x30000100) ∧
    stepOf defaultConfig (offered (receiving []) 0x30000100) = .next t ∧ t.halted = true := ⟨_, rfl, rfl, rfl⟩
theorem witness_AbortExactlyOnFatal :
    (∃ t, eventOf defaultConfig (.fall true 0) sending = .next t ∧
      (firstCause defaultConfig (.fall true 0) sending).any isFatal = true) ∧
    (∃ t, eventOf defaultConfig (.fall true 0) idle = .next t ∧
      (firstCause defaultConfig (.fall true 0) idle).any isFatal = false) := ⟨⟨_, rfl, rfl⟩, ⟨_, rfl, rfl⟩⟩
theorem witness_RunningAndFaultAreWrittenOnce :
    (∃ t, eventOf defaultConfig (.pktReady 0) idle = .next t ∧ idle.running = true ∧ t.halted = false) ∧
    (∃ t, eventOf defaultConfig (.init 0) State.reset = .next t ∧ State.reset.running = false ∧ t.running = true) :=
  ⟨⟨_, rfl, rfl, rfl⟩, ⟨_, rfl, rfl, rfl⟩⟩
theorem witness_InitStartsTheIdleTick :
    (Live idle ∧ idle.running = true) ∧
    (Live State.reset ∧ State.reset.running = false ∧ State.reset.status.allClear = true) ∧
    (Live { receiving [] with running := false } ∧ (receiving []).status.rxActive = true) ∧
    (Live { pending with running := false } ∧ pending.status.rxActive = false) := by decide
theorem witness_PktReadyMarksAndArbitrates :
    (Running idle ∧ idle.status.allClear = true) ∧ (Running sending ∧ sending.status.allClear = false) := by decide
theorem witness_PktReadyIsIdempotent :
    (Running pending ∧ pending.status.txQueued = true) ∧
    ∃ t, Running idle ∧ exec (.pktReady 0x40) idle = .next t := ⟨by decide, _, by decide, rfl⟩
theorem witness_FallStartsAReception :
    (Running (receiving []) ∧ (receiving []).status.rxActive = true) ∧
    (Running sending ∧ sending.status.rxActive = false ∧ sending.status.txActive = true) ∧
    (Running pending ∧ pending.status.rxActive = false ∧ pending.status.txActive = false) := by decide
theorem witness_RxbStoresOneByte :
    (Running idle ∧ Memory.wf defaultConfig.frameMax idle.rxbuf = true ∧ idle.status.rxActive = false) ∧
    (Running (receiving frame13) ∧ Memory.wf defaultConfig.frameMax frame13 = true ∧
      (receiving frame13).status.rxActive = true) ∧
    defaultConfig.frameMax ≤ (252 : Byte).toNat ∧ (251 : Byte).toNat < defaultConfig.frameMax := by decide
/-- Each link of the chain at its bound: a zero size, an error, a count one short, a wrong code, a service size 237, the
service size 236, a next-generation frame, a forwarded frame. -/
theorem witness_RxdoneValidatesTheFrame :
    (Running idle ∧ idle.status.rxActive = false) ∧
    (Running (receiving frame13) ∧ (receiving frame13).status.rxActive = true ∧
      defaultConfig.frameMax < (253 : Byte).toNat ∧ (252 : Byte).toNat ≤ defaultConfig.frameMax) ∧
    verdict defaultConfig true 250 [(0, 0x12)] = .silent ∧
    verdict defaultConfig true 239 frame13 = .frameError ∧
    verdict defaultConfig false 240 frame13 = .frameError ∧
    verdict defaultConfig false 239 (frame13.write 12 1) = .frameError ∧
    verdict defaultConfig false 239 (frame13With 0xCC 0x8E 0x00 0xED) = .frameError ∧
    verdict defaultConfig false 239 (frame13With 0xED 0x9E 0x00 0xEC) = .forward 13 ∧
    verdict defaultConfig false 239 (frame13With 0x7B 0x46 0x80 0x00) = .nextGenDrop ∧
    verdict defaultConfig false 239 frame13 = .forward 13 := by decide +kernel
theorem witness_TxdoneReturnsTheFrame :
    (Running idle ∧ idle.status.txActive = false) ∧
    (Running sending ∧ sending.status.txActive = true ∧ sending.status.rxActive = false) ∧
    Running { sending with status := { rxActive := true, txActive := true, txQueued := false } } := by decide
theorem witness_HeaderCheckFire :
    (Running { idle with timer := { kind := .hdrCheck, delayUs := 0 } } ∧ idle.status.rxActive = false) ∧
    (Running (receiving [(7, 1)]) ∧ (receiving [(7, 1)]).timer.kind = .hdrCheck ∧
      (receiving [(7, 1)]).status.rxActive = true ∧ ∃ a < defaultConfig.probeBytes, (receiving [(7, 1)]).rxbuf.read a ≠ 0) ∧
    (Running (receiving [(8, 1)]) ∧ ∀ a < defaultConfig.probeBytes, (receiving [(8, 1)]).rxbuf.read a = 0) :=
  ⟨by decide, ⟨by decide, by decide, by decide, 7, by decide, by decide⟩, by decide, by decide⟩
theorem witness_FrameTimeoutFire :
    (Running { idle with timer := { kind := .frameTimeout, delayUs := 0 } } ∧ idle.status.rxActive = false) ∧
    (Running supervised ∧ supervised.timer.kind = .frameTimeout ∧ supervised.status.rxActive = true) := by decide
theorem witness_FlushFire :
    (Running { receiving [] with timer := { kind := .flush, delayUs := 47 } } ∧ (receiving []).status.rxActive = true) ∧
    (Running pending ∧ pending.timer.kind = .flush ∧ pending.status.rxActive = false ∧ pending.status.txActive = false ∧
      pending.txf.valid = false) ∧
    (Running retrying ∧ retrying.timer.kind = .flush ∧ retrying.txf.valid = true) := by decide
theorem witness_TickFire :
    (Running { sending with timer := { kind := .tick, delayUs := 1 } } ∧ sending.status.txActive = true) ∧
    (Running { receiving [] with timer := { kind := .tick, delayUs := 1 } } ∧ (receiving []).status.txActive = false ∧
      (receiving []).status.rxActive = true) ∧
    (Running idle ∧ idle.timer.kind = .tick ∧ idle.status.txActive = false ∧ idle.status.rxActive = false) := by decide
theorem witness_FireConsumesTheSlot :
    (Running sending ∧ sending.timer.kind = .none) ∧
    (∃ t, Running pending ∧ exec (.fire true true 10 5 0) pending = .next t ∧ t.halted = false ∧ t.commandCount 0x6 = 0) :=
  ⟨by decide, _, by decide, rfl, by decide, by decide⟩
/-- An address of each clause, at its bounds. -/
theorem witness_RdReadsTheMap : Live State.reset ∧
    ([0x000, 0x003, 0x004, 0x00F, 0x010, 0x015, 0x016, 0x0FF, 0x100, 0x1FB, 0x1FC, 0xFFF] : List (BitVec 12)).map
      BitVec.toNat = [0x000, 0x003, 0x004, 0x00F, 0x010, 0x015, 0x016, 0x0FF, 0x100, 0x1FB, 0x1FC, 0xFFF] := by decide
theorem witness_ReadsShowOneState : ∃ t, eventOf defaultConfig (.rd 0x010) idle = .next t := ⟨_, rfl⟩
theorem witness_CanonicalBuffersAreTheirBytes : Memory.wf 252 frame13 = true := by decide
theorem witness_OnlyFallAndRxbWriteTheBuffer : ∃ t, eventOf defaultConfig (.rxb 251 1) (receiving []) = .next t := ⟨_, rfl⟩
theorem witness_ArmTimerIsTheSlot :
    (∃ t, eventOf defaultConfig (.init 0) State.reset = .next t ∧ (Command.armTimer .tick 10000).word ∈ t.out) ∧
    (∃ t, eventOf defaultConfig (.fire true true 10 5 0) pending = .next t ∧ t.commandCount 0x6 = 0) :=
  ⟨⟨_, rfl, by decide⟩, ⟨_, rfl, by decide⟩⟩
theorem witness_AtMostOneArmAndOneStart : ∃ t, eventOf defaultConfig (.fire true false 10 7 0) pending = .next t ∧
    t.commandCount 0x6 = 1 ∧ t.commandCount 0x5 = 1 := ⟨_, rfl, by decide, by decide⟩
theorem witness_TransmissionsStartOnAnIdleBus : ∃ t, eventOf defaultConfig (.fire true true 255 1 0) pending = .next t ∧
    (Command.startTx 1 267).word ∈ t.out := ⟨_, rfl, by decide⟩
/-- A setting and a clearing of each flag. -/
theorem witness_FlagsAreWrittenWhereTheRulesSay :
    (∃ t, eventOf defaultConfig (.fall true 0) idle = .next t ∧ idle.status.rxActive = false ∧
      t.status.rxActive = true) ∧
    (∃ t, eventOf defaultConfig (.fire true true 10 5 0) pending = .next t ∧ pending.status.txActive = false ∧
      t.status.txActive = true ∧ pending.status.txQueued = true ∧ t.status.txQueued = false) ∧
    (∃ t, eventOf defaultConfig (.rxdone true 239 true 0) (receiving frame13) = .next t ∧
      (receiving frame13).status.rxActive = true ∧ t.status.rxActive = false) ∧
    (∃ t, eventOf defaultConfig (.fire false false 0 0 0) (receiving [(8, 1)]) = .next t ∧ t.status.rxActive = false) ∧
    (∃ t, eventOf defaultConfig (.fire false false 0 0 0) supervised = .next t ∧
      supervised.status.rxActive = true ∧ t.status.rxActive = false) ∧
    (∃ t, eventOf defaultConfig (.txdone 0) sending = .next t ∧ sending.status.txActive = true ∧
      t.status.txActive = false) ∧
    (∃ t, eventOf defaultConfig (.pktReady 0) idle = .next t ∧ idle.status.txQueued = false ∧
      t.status.txQueued = true) :=
  ⟨⟨_, rfl, by decide⟩, ⟨_, rfl, by decide⟩, ⟨_, rfl, by decide⟩, ⟨_, rfl, by decide⟩, ⟨_, rfl, by decide⟩,
    ⟨_, rfl, by decide⟩, ⟨_, rfl, by decide⟩⟩
theorem witness_ClaimedFramesAreReturnedOnlyByTxdone :
    (∃ t, eventOf defaultConfig (.txdone 0) sending = .next t ∧ t.txf ≠ sending.txf ∧
      (Command.frameSent 5).word ∈ t.out) ∧
    (∃ t, eventOf defaultConfig (.fire true false 10 7 0) pending = .next t ∧ t.txf ≠ pending.txf) :=
  ⟨⟨_, rfl, by decide, by decide⟩, ⟨_, rfl, by decide⟩⟩
theorem witness_PhaseTransitions : ∃ t, Inv defaultConfig pending ∧
    eventOf defaultConfig (.fire false false 0 0 0) pending = .next t ∧ t.status.phase = .idle :=
  ⟨_, inv_pending, rfl, by decide⟩
theorem witness_CountersCountWhatTheTableSays :
    (∃ t, eventOf defaultConfig (.fire true false 10 7 0) pending = .next t ∧ t.diag.loError = 1) ∧
    (∃ t, eventOf defaultConfig (.fall false 0) idle = .next t ∧ t.diag.timeoutError = 1) ∧
    (∃ t, eventOf defaultConfig (.rxdone true 239 true 0) (receiving frame13) = .next t ∧ t.diag.uartError = 1) ∧
    (∃ t, eventOf defaultConfig (.rxdone false 239 false 0) (receiving frame13) = .next t ∧ t.diag.packetsReceived = 1 ∧
      t.diag.packetsDropped = 1) :=
  ⟨⟨_, rfl, by decide⟩, ⟨_, rfl, by decide⟩, ⟨_, rfl, by decide⟩, ⟨_, rfl, by decide +kernel⟩⟩
theorem witness_DrawMattersOnlyToAFlush : ∃ t, eventOf defaultConfig (.pktReady 0) sending = .next t ∧
    ∀ us, (Command.armTimer .flush us).word ∉ t.out := ⟨_, rfl, fun _ h => nomatch h⟩
theorem witness_FireFieldsAreReadOnlyByTheFlush : idle.timer.kind ≠ .flush ∧ retrying.txf.valid = true := by decide
theorem witness_ForwardingLaw : ∃ t, eventOf defaultConfig (.rxdone false 239 true 0) (receiving frame13) = .next t ∧
    t.halted = false := ⟨_, rfl, by decide +kernel⟩
theorem witness_DispatchLengthIsTheDeclaredSize : ∃ t,
    eventOf defaultConfig (.rxdone false 239 true 0) (receiving frame13) = .next t ∧ (Command.dispatch 13).word ∈ t.out :=
  ⟨_, rfl, by decide +kernel⟩
theorem witness_StepKeepsTheInvariant : ∃ t, Inv defaultConfig (offered idle 0x30000100) ∧
    step (offered idle 0x30000100) = .next t := ⟨_, by constructor <;> decide, rfl⟩
theorem witness_EveryConfigurationKeepsTheInvariant : ∃ t, Inv defaultConfig sending ∧
    eventOf defaultConfig (.txdone 0) sending = .next t := ⟨_, inv_sending, rfl⟩
theorem witness_OnlyBreachesStopTheBlock :
    (Inv defaultConfig idle ∧ Live idle ∧ keepsContract defaultConfig (.fall true 0) idle = true) ∧
    (Inv defaultConfig sending ∧ Live sending ∧ keepsContract defaultConfig (.fall true 0) sending = false) :=
  ⟨⟨inv_idle, by decide, by decide⟩, ⟨inv_sending, by decide, by decide⟩⟩
theorem witness_TwoFiresEndAReception :
    Inv defaultConfig (receiving [(0, 0x12)]) ∧ Live (receiving [(0, 0x12)]) ∧
    (receiving [(0, 0x12)]).status.rxActive = true := ⟨inv_receiving, by decide, by decide⟩

end Sys2Proof.Tests
end

section
/-! PROOFS. What the constraints of spec/00_scope.md R9 give, and that every delay and length fits its field. -/

namespace Sys2Proof

/-- The constraints of R9 as named facts, in the order of `Params.wf`. -/
structure Params.Constraints (p : Params) : Prop where
  hdrBytes_ge : 4 ≤ p.hdrBytes
  hdrBytes_le : p.hdrBytes ≤ p.frameMax
  frameMax_le : p.frameMax ≤ 255
  svcSizeOff_le : p.svcSizeOff ≤ p.hdrBytes
  probeBytes_le : p.probeBytes ≤ p.frameMax
  jitterMask_le : p.jitterMask ≤ 0xFF
  backoff_pos : p.jitterMask / 2 + p.backoffCorrUs + 1 ≤ p.backoffTargetUs
  backoff_lt : p.backoffTargetUs + p.jitterMask < 2 ^ 24 + p.jitterMask / 2 + p.backoffCorrUs
  frameTimeout_lt : (255 + p.hdrBytes) * p.rxPerByteUs + p.rxOverheadUs < 2 ^ 24
  hdrCheckUs_lt : p.hdrCheckUs < 2 ^ 24
  tickUs_lt : p.tickUs < 2 ^ 24
  waitHighUs_lt : p.waitHighUs < 2 ^ 16
  cntBits_ge : 1 ≤ p.cntBits
  cntBits_le : p.cntBits ≤ 32

/-- The check of R9 passes exactly the parameters that meet its constraints. -/
theorem Params.wf_iff_constraints (p : Params) : p.wf = true ↔ p.Constraints := by
  simp only [Params.wf, Bool.and_eq_true, decide_eq_true_eq, and_assoc]
  exact ⟨fun ⟨h1, h2, h3, h4, h5, h6, h7, h8, h9, h10, h11, h12, h13, h14⟩ =>
      ⟨h1, h2, h3, h4, h5, h6, h7, h8, h9, h10, h11, h12, h13, h14⟩,
    fun ⟨h1, h2, h3, h4, h5, h6, h7, h8, h9, h10, h11, h12, h13, h14⟩ =>
      ⟨h1, h2, h3, h4, h5, h6, h7, h8, h9, h10, h11, h12, h13, h14⟩⟩

theorem Config.constraints (c : Config) : c.toParams.Constraints := (Params.wf_iff_constraints _).mp c.valid

namespace Machine

/-- The jitter only adds, so the smallest backoff is the one whose jitter is 0 (R161). -/
theorem backoff_pos (c : Config) (rnd : Byte) : 1 ≤ backoff c rnd := by
  have hlow := c.constraints.backoff_pos
  unfold backoff
  omega

/-- The jitter is at most its mask, so the largest backoff is the one R9 bounds (R161). -/
theorem backoff_lt (c : Config) (rnd : Byte) : backoff c rnd < 2 ^ 24 := by
  have hlow := c.constraints.backoff_pos
  have hhigh := c.constraints.backoff_lt
  have hjitter : rnd.toNat &&& c.jitterMask ≤ c.jitterMask := Nat.and_le_right
  unfold backoff
  omega

/-- The size byte is at most 255 (R54). -/
theorem declaredSize_le (c : Config) (m : Memory) : declaredSize c m ≤ 255 + c.hdrBytes :=
  Nat.add_le_add_right (Nat.le_of_lt_succ (sizeByte m).isLt) _

/-- The longest frame timeout is that of the largest declared size, which R9 bounds (R115). -/
theorem frameTimeoutUs_lt (c : Config) (m : Memory) : frameTimeoutUs c m < 2 ^ 24 :=
  calc frameTimeoutUs c m
      ≤ (255 + c.hdrBytes) * c.rxPerByteUs + c.rxOverheadUs :=
        Nat.add_le_add_right (Nat.mul_le_mul_right _ (declaredSize_le c m)) _
    _ < 2 ^ 24 := c.constraints.frameTimeout_lt

/-- The claimed frame's size is a byte (R172). -/
theorem transmitLength_le (c : Config) (f : TxFrame) : transmitLength c f ≤ 255 + c.hdrBytes :=
  Nat.add_le_add_right (Nat.le_of_lt_succ f.size.isLt) _

/-- A byte and a header together take at most 255 + 255. -/
theorem hdrBytes_lt_half (c : Config) : 255 + c.hdrBytes < 2 ^ 16 := by
  have hhdr := c.constraints.hdrBytes_le
  have hmax := c.constraints.frameMax_le
  omega

theorem frameMax_lt_half (c : Config) : c.frameMax < 2 ^ 16 :=
  Nat.lt_of_le_of_lt c.constraints.frameMax_le (by decide)

/-- Settles O33: each bound is a constraint of R9, or follows from one because a size byte is at most 255 and the jitter
at most its mask. -/
theorem fieldsHoldTheirValues : Obligations.FieldsHoldTheirValues := fun c =>
  ⟨fun rnd => ⟨backoff_pos c rnd, backoff_lt c rnd⟩, frameTimeoutUs_lt c, c.constraints.hdrCheckUs_lt,
    c.constraints.tickUs_lt, c.constraints.waitHighUs_lt, frameMax_lt_half c,
    fun f => Nat.lt_of_le_of_lt (transmitLength_le c f) (hdrBytes_lt_half c),
    fun m => Nat.lt_of_le_of_lt (declaredSize_le c m) (hdrBytes_lt_half c)⟩

end Machine

end Sys2Proof
end

section
/-! PROOFS. Every event in one form: it stops the block with its first cause, or has its effect, and an effect leaves
`HALTED` and `FAULT` (spec/60_exceptions.md R238, R243). -/

namespace Sys2Proof.Machine

/-- The commands of a stop: `ABORT` of a fatal cause, nothing for any other (R231, R235). -/
def stopCommands (cause : StopCause) : List Command := if isFatal cause then [.abort cause] else []

/-- What the event does when no check stops it, on the state it begins in. -/
def effectOf (c : Config) (i : Instr) (s : State) : State :=
  match i with
  | .init rnd => initEffect c rnd s
  | .pktReady rnd => pktReadyEffect c rnd s
  | .fall w rnd => fallEffect c w rnd s
  | .rxb off data => { s with rxbuf := s.rxbuf.write off.toNat data }
  | .rxdone e left dacc rnd => rxdoneEffect c e left dacc rnd s
  | .txdone rnd => txdoneEffect c rnd s
  | .fire pull stx fsize handle rnd => fireEffect c s.timer.kind pull stx fsize handle rnd s
  | .rd addr => { s with rdata := some (regmap c addr s) }

/-- What an event that answers a next state did: it stopped the block with its first cause, or it had no cause and was
performed (R238). -/
theorem eventOf_next {c : Config} {i : Instr} {s t : State} (h : eventOf c i s = .next t) :
    s.halted = false ∧ ((∃ cause, firstCause c i s = some cause ∧ t = s.stopped cause (stopCommands cause)) ∨
      firstCause c i s = none ∧ t = effectOf c i s.beginEvent) := by
  cases i with
  | init rnd =>
    obtain ⟨hh, ⟨hr, rfl⟩ | ⟨hr, rfl⟩⟩ := initEvent_next h
    · exact ⟨hh, .inl ⟨_, by simp [firstCause, hr], rfl⟩⟩
    · exact ⟨hh, .inr ⟨by simp [firstCause, hr], rfl⟩⟩
  | pktReady rnd =>
    obtain ⟨hh, ⟨hr, rfl⟩ | ⟨hr, rfl⟩⟩ := pktReadyEvent_next h
    · exact ⟨hh, .inl ⟨_, by simp [firstCause, hr], rfl⟩⟩
    · exact ⟨hh, .inr ⟨by simp [firstCause, hr], rfl⟩⟩
  | fall w rnd =>
    obtain ⟨hh, ⟨hr, rfl⟩ | ⟨hr, hrx, rfl⟩ | ⟨hr, hrx, htx, rfl⟩ | ⟨hr, hrx, htx, rfl⟩⟩ := fallEvent_next h
    · exact ⟨hh, .inl ⟨_, by simp [firstCause, hr], rfl⟩⟩
    · exact ⟨hh, .inl ⟨_, by simp [firstCause, hr, hrx], rfl⟩⟩
    · exact ⟨hh, .inl ⟨_, by simp [firstCause, hr, hrx, htx], rfl⟩⟩
    · exact ⟨hh, .inr ⟨by simp [firstCause, hr, hrx, htx], rfl⟩⟩
  | rxb off data =>
    obtain ⟨hh, ⟨hr, rfl⟩ | ⟨hr, hrx, rfl⟩ | ⟨hr, hrx, hoff, rfl⟩ | ⟨hr, hrx, hoff, rfl⟩⟩ := rxbEvent_next h
    · exact ⟨hh, .inl ⟨_, by simp [firstCause, hr], rfl⟩⟩
    · exact ⟨hh, .inl ⟨_, by simp [firstCause, hr, hrx], rfl⟩⟩
    · exact ⟨hh, .inl ⟨_, by simp [firstCause, hr, hrx, hoff], rfl⟩⟩
    · exact ⟨hh, .inr ⟨by simp [firstCause, hr, hrx, hoff], rfl⟩⟩
  | rxdone e left dacc rnd =>
    obtain ⟨hh, ⟨hr, rfl⟩ | ⟨hr, hrx, rfl⟩ | ⟨hr, hrx, hleft, rfl⟩ | ⟨hr, hrx, hleft, rfl⟩⟩ := rxdoneEvent_next h
    · exact ⟨hh, .inl ⟨_, by simp [firstCause, hr], rfl⟩⟩
    · exact ⟨hh, .inl ⟨_, by simp [firstCause, hr, hrx], rfl⟩⟩
    · exact ⟨hh, .inl ⟨_, by simp [firstCause, hr, hrx, hleft], rfl⟩⟩
    · exact ⟨hh, .inr ⟨by simp [firstCause, hr, hrx, hleft], rfl⟩⟩
  | txdone rnd =>
    obtain ⟨hh, ⟨hr, rfl⟩ | ⟨hr, htx, rfl⟩ | ⟨hr, htx, rfl⟩⟩ := txdoneEvent_next h
    · exact ⟨hh, .inl ⟨_, by simp [firstCause, hr], rfl⟩⟩
    · exact ⟨hh, .inl ⟨_, by simp [firstCause, hr, htx], rfl⟩⟩
    · exact ⟨hh, .inr ⟨by simp [firstCause, hr, htx], rfl⟩⟩
  | fire pull stx fsize handle rnd =>
    obtain ⟨hh, ⟨hr, rfl⟩ | ⟨hr, hk, rfl⟩ | ⟨hr, hk, htx, rfl⟩ | ⟨hr, hk, htick, rfl⟩⟩ := fireEvent_next h
    · exact ⟨hh, .inl ⟨_, by simp [firstCause, hr], rfl⟩⟩
    · exact ⟨hh, .inl ⟨_, by simp [firstCause, hr, hk], rfl⟩⟩
    · exact ⟨hh, .inl ⟨_, by simp [firstCause, hr, hk, htx], rfl⟩⟩
    · exact ⟨hh, .inr ⟨by simp only [firstCause, hr, hk]; simpa using htick, rfl⟩⟩
  | rd addr =>
    obtain ⟨hh, rfl⟩ := rdEvent_next h
    exact ⟨hh, .inr ⟨rfl, rfl⟩⟩

/-- Code 0 is no cause: a stop always writes a `FAULT` that is not 0 (R30). -/
theorem firstCause_ne_none {c : Config} {i : Instr} {s : State} {cause : StopCause}
    (h : firstCause c i s = some cause) : cause ≠ .none := by
  rintro rfl
  cases i with
  | rd => cases h
  | init | pktReady | fall | rxb | rxdone | txdone | fire =>
    simp only [firstCause] at h
    split_ifs at h <;> cases h

section stopFields
variable (c : Config)

@[simp] theorem State.rxTimeout_stopFields (rnd : Byte) (s : State) :
    (s.rxTimeout c rnd).halted = s.halted ∧ (s.rxTimeout c rnd).fault = s.fault := by
  simp [State.rxTimeout]

@[simp] theorem State.txDone_stopFields (rnd : Byte) (s : State) :
    (s.txDone c rnd).halted = s.halted ∧ (s.txDone c rnd).fault = s.fault := by
  simp [State.txDone]

@[simp] theorem startTransmit_stopFields (stx : Bool) (rnd : Byte) (s : State) :
    (startTransmit c stx rnd s).halted = s.halted ∧ (startTransmit c stx rnd s).fault = s.fault := by
  cases stx <;> simp [startTransmit]

@[simp] theorem settleVerdict_stopFields (dacc : Bool) (v : Verdict) (s : State) :
    (settleVerdict c dacc v s).halted = s.halted ∧ (settleVerdict c dacc v s).fault = s.fault := by
  cases v with
  | forward decl => cases dacc <;> simp [settleVerdict]
  | silent | frameError | nextGenDrop => simp [settleVerdict]

@[simp] theorem hdrCheck_stopFields (rnd : Byte) (s : State) :
    (hdrCheck c rnd s).halted = s.halted ∧ (hdrCheck c rnd s).fault = s.fault := by
  simp only [hdrCheck]
  split_ifs <;> simp

@[simp] theorem frameTimeout_stopFields (rnd : Byte) (s : State) :
    (frameTimeout c rnd s).halted = s.halted ∧ (frameTimeout c rnd s).fault = s.fault := by
  unfold frameTimeout
  split_ifs <;> simp

@[simp] theorem flush_stopFields (pull stx : Bool) (fsize handle rnd : Byte) (s : State) :
    (flush c pull stx fsize handle rnd s).halted = s.halted ∧
      (flush c pull stx fsize handle rnd s).fault = s.fault := by
  simp only [flush]
  split_ifs <;> simp

/-- An event that is performed leaves `HALTED` and `FAULT`: only a stop writes them (R30). -/
@[simp] theorem effectOf_stopFields (i : Instr) (s : State) :
    (effectOf c i s).halted = s.halted ∧ (effectOf c i s).fault = s.fault := by
  cases i with
  | init rnd => simp [effectOf, initEffect]
  | pktReady rnd => simp only [effectOf, pktReadyEffect]; split <;> simp
  | fall w rnd => cases w <;> simp [effectOf, fallEffect]
  | rxb off data => simp [effectOf]
  | rxdone e left dacc rnd => simp [effectOf, rxdoneEffect]
  | txdone rnd => simp [effectOf, txdoneEffect]
  | fire pull stx fsize handle rnd => cases hk : s.timer.kind <;> simp [effectOf, fireEffect, hk]
  | rd addr => simp [effectOf]

end stopFields

/-- A step that halts a live block is a stop, with a cause that is not code 0; what it stopped is the state
before the step, up to the word taken from the port. -/
theorem stepOf_halts {c : Config} {s t : State} (hlive : Live s) (h : stepOf c s = .next t) (ht : t.halted = true) :
    ∃ rest cause, cause ≠ .none ∧ t = { s with events := rest }.stopped cause (stopCommands cause) := by
  obtain ⟨-, ⟨-, rfl⟩ | ⟨w, rest, -, -, rfl⟩ | ⟨w, rest, i, -, -, hrun⟩⟩ := takeNext_next h
  case inl => exact absurd (hlive.symm.trans ht) (by decide)
  case inr.inl => exact ⟨rest, .illegalEvent, by decide, rfl⟩
  case inr.inr =>
    obtain ⟨-, ⟨cause, hcause, rfl⟩ | ⟨-, rfl⟩⟩ := eventOf_next hrun
    · exact ⟨rest, cause, firstCause_ne_none hcause, rfl⟩
    · simp [hlive] at ht

/-- Settles O15: a step that halts the block is a stop (`stepOf_halts`), and a stop writes only `FAULT`, `HALTED` and the
output. -/
theorem stopsChangeNothingElse : Obligations.StopsChangeNothingElse := by
  intro c s t hlive h ht
  obtain ⟨rest, cause, hcause, rfl⟩ := stepOf_halts hlive h ht
  refine ⟨rfl, rfl, rfl, rfl, rfl, rfl, rfl, hcause, ?_⟩
  rw [State.stopped_out, State.stopped_fault, stopCommands]
  split <;> rfl

end Sys2Proof.Machine
end

section
/-! PROOFS. The equations of the operations that the effects are made of: what the retime's two paths, the verdict, the
start of a transmission and the continuations leave in each element of the state (spec/10_state.md R20). -/

namespace Sys2Proof.Machine

@[simp] theorem Status.clear_nothing_mask (f : Status) : f.clear .nothing = f := by
  simp [Status.clear]

@[simp] theorem Status.clear_rxActive_mask (f : Status) : f.clear .rxActive = { f with rxActive := false } := by
  simp [Status.clear]

@[simp] theorem Status.clear_txActive_mask (f : Status) : f.clear .txActive = { f with txActive := false } := by
  simp [Status.clear]

theorem Status.allClear_iff (f : Status) :
    f.allClear = true ↔ f.rxActive = false ∧ f.txActive = false ∧ f.txQueued = false := by
  simp [Status.allClear, and_assoc]

/-- The flush and the tick are all a retime arms (R160). -/
theorem armedAfter_kind (c : Config) (f : Status) (rnd : Byte) :
    (armedAfter c f rnd).kind = if f.txQueued && !f.txActive then .flush else .tick := by
  unfold armedAfter
  split <;> rfl

section operations
variable (c : Config) (rnd : Byte) (s : State)

/-- A retime leaves the slot to a reception and arms it anew otherwise (R162). -/
@[simp] theorem State.retime_timer (mask : ClearMask) :
    (s.retime c mask rnd).timer =
      if (s.status.clear mask).rxActive then s.timer else armedAfter c (s.status.clear mask) rnd := by
  cases h : (s.status.clear mask).rxActive
  · simp [s.retime_armedAfter c mask rnd h]
  · simp [s.retime_receiving c mask rnd h]

@[simp] theorem State.rxTimeout_status : (s.rxTimeout c rnd).status = { s.status with rxActive := false } := by
  simp [State.rxTimeout]

@[simp] theorem State.rxTimeout_timer :
    (s.rxTimeout c rnd).timer = armedAfter c { s.status with rxActive := false } rnd := by
  simp [State.rxTimeout]

@[simp] theorem State.rxTimeout_diag :
    (s.rxTimeout c rnd).diag = { s.diag with timeoutError := inc c s.diag.timeoutError } := by
  simp [State.rxTimeout]

@[simp] theorem State.rxTimeout_frame :
    (s.rxTimeout c rnd).txf = s.txf ∧ (s.rxTimeout c rnd).rxbuf = s.rxbuf ∧
      (s.rxTimeout c rnd).running = s.running := by
  simp [State.rxTimeout]

@[simp] theorem State.txDone_status : (s.txDone c rnd).status = { s.status with txActive := false } := by
  simp [State.txDone]

@[simp] theorem State.txDone_timer :
    (s.txDone c rnd).timer =
      if s.status.rxActive then s.timer else armedAfter c { s.status with txActive := false } rnd := by
  simp [State.txDone]

@[simp] theorem State.txDone_frame :
    (s.txDone c rnd).txf = s.txf ∧ (s.txDone c rnd).rxbuf = s.rxbuf ∧ (s.txDone c rnd).diag = s.diag ∧
      (s.txDone c rnd).running = s.running := by
  simp [State.txDone]

@[simp] theorem settleVerdict_frame (dacc : Bool) (v : Verdict) :
    (settleVerdict c dacc v s).status = s.status ∧ (settleVerdict c dacc v s).txf = s.txf ∧
      (settleVerdict c dacc v s).timer = s.timer ∧ (settleVerdict c dacc v s).rxbuf = s.rxbuf ∧
      (settleVerdict c dacc v s).running = s.running := by
  cases v with
  | forward decl => cases dacc <;> simp [settleVerdict]
  | silent | frameError | nextGenDrop => simp [settleVerdict]

/-- The header check does nothing without a reception (R112). -/
theorem hdrCheck_not_receiving (h : s.status.rxActive = false) : hdrCheck c rnd s = s := by
  simp [hdrCheck, h]

/-- A probed byte that is not 0 lets the reception go on, supervised by the frame timeout (R112). -/
theorem hdrCheck_present (h : s.status.rxActive = true) (hp : headerPresent c s.rxbuf = true) :
    hdrCheck c rnd s = (s.emit .flushRx).arm .frameTimeout (frameTimeoutUs c s.rxbuf) := by
  simp [hdrCheck, h, hp]

/-- No probed byte: the reception is abandoned (R112). -/
theorem hdrCheck_absent (h : s.status.rxActive = true) (hp : headerPresent c s.rxbuf = false) :
    hdrCheck c rnd s = (s.emit .flushRx).rxTimeout c rnd := by
  simp [hdrCheck, h, hp]

/-- Everything the header check can do (R112). -/
theorem hdrCheck_cases :
    s.status.rxActive = false ∧ hdrCheck c rnd s = s ∨
    s.status.rxActive = true ∧ headerPresent c s.rxbuf = true ∧
      hdrCheck c rnd s = (s.emit .flushRx).arm .frameTimeout (frameTimeoutUs c s.rxbuf) ∨
    s.status.rxActive = true ∧ headerPresent c s.rxbuf = false ∧
      hdrCheck c rnd s = (s.emit .flushRx).rxTimeout c rnd := by
  cases h : s.status.rxActive
  · exact .inl ⟨rfl, hdrCheck_not_receiving c rnd s h⟩
  · cases hp : headerPresent c s.rxbuf
    · exact .inr (.inr ⟨rfl, rfl, hdrCheck_absent c rnd s h hp⟩)
    · exact .inr (.inl ⟨rfl, rfl, hdrCheck_present c rnd s h hp⟩)

@[simp] theorem hdrCheck_frame :
    (hdrCheck c rnd s).txf = s.txf ∧ (hdrCheck c rnd s).rxbuf = s.rxbuf ∧ (hdrCheck c rnd s).running = s.running := by
  rcases hdrCheck_cases c rnd s with ⟨-, h⟩ | ⟨-, -, h⟩ | ⟨-, -, h⟩ <;> simp [h]

/-- Everything the frame timeout can do (R114). -/
theorem frameTimeout_cases :
    s.status.rxActive = false ∧ frameTimeout c rnd s = s ∨
    s.status.rxActive = true ∧ frameTimeout c rnd s = s.rxTimeout c rnd := by
  cases h : s.status.rxActive <;> simp [frameTimeout, h]

@[simp] theorem frameTimeout_frame :
    (frameTimeout c rnd s).txf = s.txf ∧ (frameTimeout c rnd s).rxbuf = s.rxbuf ∧
      (frameTimeout c rnd s).running = s.running := by
  rcases frameTimeout_cases c rnd s with ⟨-, h⟩ | ⟨-, h⟩ <;> simp [h]

@[simp] theorem startTransmit_frame (stx : Bool) :
    (startTransmit c stx rnd s).txf = s.txf ∧ (startTransmit c stx rnd s).rxbuf = s.rxbuf ∧
      (startTransmit c stx rnd s).running = s.running := by
  cases stx <;> simp [startTransmit]

section flush
variable (pull stx : Bool) (fsize handle : Byte)

/-- The flush defers on a busy bus (R171). -/
theorem flush_busy (h : (s.status.rxActive || s.status.txActive) = true) :
    flush c pull stx fsize handle rnd s = s := by
  simp [flush, h]

@[simp] theorem flush_frame :
    (flush c pull stx fsize handle rnd s).rxbuf = s.rxbuf ∧
      (flush c pull stx fsize handle rnd s).running = s.running := by
  simp only [flush]
  split_ifs <;> simp

/-- A claimed frame stays, and a successful pull on an idle bus claims one (R170, R178). -/
theorem flush_txf (hrx : s.status.rxActive = false) (htx : s.status.txActive = false) :
    (flush c pull stx fsize handle rnd s).txf =
      if !s.txf.valid && pull then { valid := true, handle := handle, size := fsize } else s.txf := by
  cases hv : s.txf.valid <;> cases pull <;> simp [flush, hrx, htx, hv]

/-- On an idle bus the flush takes a frame to send, held or pulled, and starts it; the frame is pending again if the start
race is lost, and nothing is pending if there was no frame (R170 to R173). -/
theorem flush_status (hrx : s.status.rxActive = false) (htx : s.status.txActive = false) :
    (flush c pull stx fsize handle rnd s).status =
      { rxActive := false, txActive := (s.txf.valid || pull) && stx, txQueued := (s.txf.valid || pull) && !stx } := by
  cases hv : s.txf.valid <;> cases pull <;> cases stx <;> simp [flush, startTransmit, hrx, htx, hv]

/-- A started transmission arms nothing; every other flush on an idle bus ends in a retime (R172, R173). -/
theorem flush_timer (hrx : s.status.rxActive = false) (htx : s.status.txActive = false) :
    (flush c pull stx fsize handle rnd s).timer =
      if (s.txf.valid || pull) && stx then s.timer
      else armedAfter c (flush c pull stx fsize handle rnd s).status rnd := by
  rw [flush_status c rnd s pull stx fsize handle hrx htx]
  cases hv : s.txf.valid <;> cases pull <;> cases stx <;> simp [flush, startTransmit, hrx, htx, hv]

end flush

/-! ### The effects -/

@[simp] theorem pktReadyEffect_status : (pktReadyEffect c rnd s).status = { s.status with txQueued := true } := by
  simp only [pktReadyEffect]
  split <;> simp

@[simp] theorem pktReadyEffect_timer :
    (pktReadyEffect c rnd s).timer =
      if s.status.allClear then armedAfter c { s.status with txQueued := true } rnd else s.timer := by
  simp only [pktReadyEffect]
  split
  case isTrue h =>
    obtain ⟨hrx, -⟩ := s.status.allClear_iff.mp h
    simp [hrx]
  case isFalse => rfl

@[simp] theorem pktReadyEffect_frame :
    (pktReadyEffect c rnd s).txf = s.txf ∧ (pktReadyEffect c rnd s).rxbuf = s.rxbuf ∧
      (pktReadyEffect c rnd s).diag = s.diag ∧ (pktReadyEffect c rnd s).running = s.running := by
  simp only [pktReadyEffect]
  split <;> simp

/-- An edge leaves a reception active exactly if the line returned high (R100). -/
@[simp] theorem fallEffect_status (w : Bool) : (fallEffect c w rnd s).status = { s.status with rxActive := w } := by
  cases w <;> simp [fallEffect]

@[simp] theorem fallEffect_timer (w : Bool) :
    (fallEffect c w rnd s).timer =
      if w then { kind := .hdrCheck, delayUs := BitVec.ofNat 24 c.hdrCheckUs }
      else armedAfter c { s.status with rxActive := false } rnd := by
  cases w <;> simp [fallEffect]

@[simp] theorem fallEffect_frame (w : Bool) :
    (fallEffect c w rnd s).txf = s.txf ∧ (fallEffect c w rnd s).rxbuf = Memory.zeroed ∧
      (fallEffect c w rnd s).running = s.running := by
  cases w <;> simp [fallEffect]

@[simp] theorem rxdoneEffect_status (e : Bool) (left : Byte) (dacc : Bool) :
    (rxdoneEffect c e left dacc rnd s).status = { s.status with rxActive := false } := by
  simp [rxdoneEffect]

@[simp] theorem rxdoneEffect_timer (e : Bool) (left : Byte) (dacc : Bool) :
    (rxdoneEffect c e left dacc rnd s).timer = armedAfter c { s.status with rxActive := false } rnd := by
  simp [rxdoneEffect]

@[simp] theorem rxdoneEffect_frame (e : Bool) (left : Byte) (dacc : Bool) :
    (rxdoneEffect c e left dacc rnd s).txf = s.txf ∧ (rxdoneEffect c e left dacc rnd s).rxbuf = s.rxbuf ∧
      (rxdoneEffect c e left dacc rnd s).running = s.running := by
  simp [rxdoneEffect]

@[simp] theorem txdoneEffect_status : (txdoneEffect c rnd s).status = { s.status with txActive := false } := by
  simp [txdoneEffect]

@[simp] theorem txdoneEffect_timer :
    (txdoneEffect c rnd s).timer =
      if s.status.rxActive then s.timer else armedAfter c { s.status with txActive := false } rnd := by
  simp [txdoneEffect]

@[simp] theorem txdoneEffect_frame :
    (txdoneEffect c rnd s).txf = { valid := false, handle := 0, size := 0 } ∧ (txdoneEffect c rnd s).rxbuf = s.rxbuf ∧
      (txdoneEffect c rnd s).diag = s.diag ∧ (txdoneEffect c rnd s).running = s.running := by
  simp [txdoneEffect]

@[simp] theorem initEffect_status : (initEffect c rnd s).status = s.status := by
  simp [initEffect]

@[simp] theorem initEffect_timer :
    (initEffect c rnd s).timer = if s.status.rxActive then s.timer else armedAfter c s.status rnd := by
  simp [initEffect]

@[simp] theorem initEffect_frame :
    (initEffect c rnd s).txf = s.txf ∧ (initEffect c rnd s).rxbuf = s.rxbuf ∧ (initEffect c rnd s).diag = s.diag ∧
      (initEffect c rnd s).running = true := by
  simp [initEffect]

@[simp] theorem fireEffect_frame (kind : TimerKind) (pull stx : Bool) (fsize handle : Byte) :
    (fireEffect c kind pull stx fsize handle rnd s).rxbuf = s.rxbuf ∧
      (fireEffect c kind pull stx fsize handle rnd s).running = s.running := by
  cases kind <;> simp [fireEffect]

end operations

end Sys2Proof.Machine
end

section
/-! PROOFS. Who writes `RUNNING`, `FAULT` and the flags of `STATUS` (spec/10_state.md R21, R22, R29, R30). -/

namespace Sys2Proof.Machine

/-- `RUNNING` is 1 after the effect of `INIT`, and every other effect leaves it (R29). -/
theorem effectOf_running (c : Config) (i : Instr) (s : State) :
    (∃ rnd, i = .init rnd) ∧ (effectOf c i s).running = true ∨ (effectOf c i s).running = s.running := by
  cases i with
  | init rnd => exact .inl ⟨⟨rnd, rfl⟩, by simp [effectOf]⟩
  | pktReady | fall | rxb | rxdone | txdone | fire | rd => exact .inr (by simp [effectOf])

/-- Settles O17: a stop leaves `RUNNING` and halts, and an effect leaves `FAULT` (`effectOf_stopFields`) and writes
`RUNNING` only for `INIT` (`effectOf_running`). -/
theorem runningAndFaultAreWrittenOnce : Obligations.RunningAndFaultAreWrittenOnce := by
  intro c i s t h
  obtain ⟨-, ⟨cause, -, rfl⟩ | ⟨-, rfl⟩⟩ := eventOf_next h
  · simp +contextual
  · rcases effectOf_running c i s.beginEvent with ⟨hinit, hrun⟩ | hrun
    · simp [hrun, hinit]
    · simp +contextual [hrun]

/-- Everything an event can do to `STATUS`, with what it does to `TIMER` where it clears an activity flag. -/
inductive StatusChange (c : Config) (s t : State) : Instr → Prop
  /-- The event leaves the three flags. -/
  | kept (i : Instr) (hstatus : t.status = s.status) : StatusChange c s t i
  /-- R165. -/
  | marked (rnd : Byte) (hstatus : t.status = { s.status with txQueued := true }) : StatusChange c s t (.pktReady rnd)
  /-- R102, R105. -/
  | received (rnd : Byte) (hstatus : t.status = { s.status with rxActive := true }) :
    StatusChange c s t (.fall true rnd)
  /-- R131. -/
  | completed (e : Bool) (left : Byte) (dacc : Bool) (rnd : Byte)
      (hstatus : t.status = { s.status with rxActive := false }) (htimer : t.timer = armedAfter c t.status rnd) :
    StatusChange c s t (.rxdone e left dacc rnd)
  /-- R104, by the header check (R112) or the frame timeout (R114). -/
  | abandoned (pull stx : Bool) (fsize handle rnd : Byte)
      (hstatus : t.status = { s.status with rxActive := false }) (htimer : t.timer = armedAfter c t.status rnd)
      (hcause : s.timer.kind = .hdrCheck ∧ (∀ a < c.probeBytes, s.rxbuf.read a = 0) ∨ s.timer.kind = .frameTimeout) :
    StatusChange c s t (.fire pull stx fsize handle rnd)
  /-- R175, R176. -/
  | sent (rnd : Byte) (hstatus : t.status = { s.status with txActive := false })
      (htimer : t.timer = if s.status.rxActive then s.timer else armedAfter c t.status rnd) :
    StatusChange c s t (.txdone rnd)
  /-- R170 to R173; `claimed`: there is a frame to send. -/
  | flushed (pull stx : Bool) (fsize handle rnd : Byte) (claimed : Bool) (hkind : s.timer.kind = .flush)
      (hrx : s.status.rxActive = false) (htx : s.status.txActive = false)
      (hstatus : t.status = { rxActive := false, txActive := claimed && stx, txQueued := claimed && !stx }) :
    StatusChange c s t (.fire pull stx fsize handle rnd)

/-- A header check that abandons the reception found no byte (R113). -/
theorem read_eq_zero_of_not_headerPresent {c : Config} {m : Memory} (h : headerPresent c m = false) :
    ∀ a < c.probeBytes, m.read a = 0 := by
  intro a ha
  by_contra hne
  exact absurd ((headerPresent_iff c m).mpr ⟨a, ha, hne⟩) (by simp [h])

/-- What a fire that is performed does to the flags, by the continuation it runs. -/
theorem fireEffect_statusChange (c : Config) (pull stx : Bool) (fsize handle rnd : Byte) (s : State) :
    StatusChange c s (fireEffect c s.timer.kind pull stx fsize handle rnd s.beginEvent)
      (.fire pull stx fsize handle rnd) := by
  cases hk : s.timer.kind with
  | none => exact .kept _ rfl
  | tick => exact .kept _ (by simp [fireEffect])
  | hdrCheck =>
    rcases hdrCheck_cases c rnd s.beginEvent.emptyTimer with ⟨-, h⟩ | ⟨-, -, h⟩ | ⟨-, hp, h⟩
    · exact .kept _ (by simp [fireEffect, h])
    · exact .kept _ (by simp [fireEffect, h])
    · exact .abandoned _ _ _ _ _ (by simp [fireEffect, h]) (by simp [fireEffect, h])
        (.inl ⟨hk, read_eq_zero_of_not_headerPresent hp⟩)
  | frameTimeout =>
    rcases frameTimeout_cases c rnd s.beginEvent.emptyTimer with ⟨-, h⟩ | ⟨-, h⟩
    · exact .kept _ (by simp [fireEffect, h])
    · exact .abandoned _ _ _ _ _ (by simp [fireEffect, h]) (by simp [fireEffect, h]) (.inr hk)
  | flush =>
    cases hbusy : s.status.rxActive || s.status.txActive
    · obtain ⟨hrx, htx⟩ := Bool.or_eq_false_iff.mp hbusy
      exact .flushed _ _ _ _ _ (s.txf.valid || pull) hk hrx htx (flush_status c rnd _ pull stx fsize handle hrx htx)
    · refine .kept _ ?_
      rw [fireEffect, flush_busy c rnd s.beginEvent.emptyTimer pull stx fsize handle hbusy]
      rfl

/-- What any event does to the flags. -/
theorem eventOf_statusChange {c : Config} {i : Instr} {s t : State} (h : eventOf c i s = .next t) :
    StatusChange c s t i := by
  obtain ⟨-, ⟨cause, -, rfl⟩ | ⟨hnone, rfl⟩⟩ := eventOf_next h
  · exact .kept i rfl
  · cases i with
    | init rnd => exact .kept _ (by simp [effectOf])
    | pktReady rnd => exact .marked rnd (by simp [effectOf])
    | fall w rnd =>
      cases w with
      | true => exact .received rnd (by simp [effectOf])
      | false =>
        have hrx : s.status.rxActive = false := by
          simp only [firstCause] at hnone
          split_ifs at hnone with hrun hrx
          simpa using hrx
        refine .kept _ ?_
        simp [effectOf, ← hrx]
    | rxb off data => exact .kept _ rfl
    | rxdone e left dacc rnd => exact .completed e left dacc rnd (by simp [effectOf]) (by simp [effectOf])
    | txdone rnd =>
      refine .sent rnd (txdoneEffect_status c rnd s.beginEvent) ?_
      rw [effectOf, txdoneEffect_status]
      exact txdoneEffect_timer c rnd s.beginEvent
    | fire pull stx fsize handle rnd => exact fireEffect_statusChange c pull stx fsize handle rnd s
    | rd addr => exact .kept _ rfl

/-- Settles O39: each change of a flag is one of `StatusChange`, whose case names the event. -/
theorem flagsAreWrittenWhereTheRulesSay : Obligations.FlagsAreWrittenWhereTheRulesSay := by
  intro c i s t h
  cases eventOf_statusChange h with
  | kept _ hstatus => simp +contextual [hstatus]
  | marked rnd hstatus => simp +contextual [hstatus]
  | received rnd hstatus =>
    refine ⟨fun _ _ => ⟨rnd, rfl⟩, ?_, ?_, ?_, ?_, ?_⟩ <;> simp +contextual [hstatus]
  | completed e left dacc rnd hstatus htimer =>
    refine ⟨?_, ?_, ?_, fun _ _ => .inl ⟨e, left, dacc, rnd, rfl, htimer⟩, ?_, ?_⟩ <;> simp +contextual [hstatus]
  | abandoned pull stx fsize handle rnd hstatus htimer hcause =>
    refine ⟨?_, ?_, ?_, fun _ _ => .inr ⟨pull, stx, fsize, handle, rnd, rfl, htimer, hcause⟩, ?_, ?_⟩ <;>
      simp +contextual [hstatus]
  | sent rnd hstatus htimer =>
    refine ⟨?_, ?_, ?_, ?_, fun _ _ => ⟨rnd, rfl, htimer⟩, ?_⟩ <;> simp +contextual [hstatus]
  | flushed pull stx fsize handle rnd claimed hkind hrx htx hstatus =>
    cases stx <;> simp +contextual [hstatus, hkind, hrx, htx]

end Sys2Proof.Machine
end

section
/-! PROOFS. The invariant (spec/10_state.md R41) in four independent parts: the control elements, the buffer, the recorder
and the stop; and how each part is kept. -/

namespace Sys2Proof.Machine

/-! ### The parts of the invariant -/

/-- What the invariant says of `RUNNING`, `STATUS`, `TXF` and `TIMER`: the six items of R41 and the forms of an unclaimed
reference and an empty slot. -/
structure Control (running : Bool) (f : Status) (x : TxFrame) (k : Timer) : Prop where
  notBoth : ¬ (f.rxActive = true ∧ f.txActive = true)
  beforeInit : running = false → f.allClear = true ∧ x.valid = false ∧ k.kind = .none
  receiving : f.rxActive = true → k.kind = .hdrCheck ∨ k.kind = .frameTimeout
  transmitting : f.txActive = true → x.valid = true ∧ k.kind = .none
  waiting : running = true → f.rxActive = false → f.txActive = false → k.kind = if f.txQueued then .flush else .tick
  claimed : x.valid = true → f.txActive = true ∨ f.txQueued = true
  unclaimed : x.valid = false → x.handle = 0 ∧ x.size = 0
  emptySlot : k.kind = .none → k.delayUs = 0

/-- The control part of the invariant, of a state. -/
abbrev State.Control (s : State) : Prop := Machine.Control s.running s.status s.txf s.timer

/-- What the invariant says of the recorder: each counter fits `CNT_BITS`, and the placeholder is 0 (R26). -/
structure Diag.Fits (c : Config) (d : Diag) : Prop where
  loError : d.loError.toNat < 2 ^ c.cntBits
  timeoutError : d.timeoutError.toNat < 2 ^ c.cntBits
  uartError : d.uartError.toNat < 2 ^ c.cntBits
  packetsReceived : d.packetsReceived.toNat < 2 ^ c.cntBits
  packetsDropped : d.packetsDropped.toNat < 2 ^ c.cntBits
  busState : d.busState = 0

theorem inv_iff (c : Config) (s : State) :
    Inv c s ↔ s.Control ∧ Memory.wf c.frameMax s.rxbuf = true ∧ s.diag.Fits c ∧ (s.halted = false ↔ s.fault = .none) :=
  ⟨fun ⟨h1, h2, h3, h4, h5, h6, h7, h8, hbuf, ⟨d1, d2, d3, d4, d5⟩, d6, hstop⟩ =>
      ⟨⟨h1, h2, h3, h4, h5, h6, h7, h8⟩, hbuf, ⟨d1, d2, d3, d4, d5, d6⟩, hstop⟩,
    fun ⟨⟨h1, h2, h3, h4, h5, h6, h7, h8⟩, hbuf, ⟨d1, d2, d3, d4, d5, d6⟩, hstop⟩ =>
      ⟨h1, h2, h3, h4, h5, h6, h7, h8, hbuf, ⟨d1, d2, d3, d4, d5⟩, d6, hstop⟩⟩

/-! ### The control part -/

/-- The claimed-frame reference of a bus that does not transmit: a held frame is pending, and an empty reference has
the form (0, 0, 0) (R23, R41 item 6). -/
structure TxFrame.Waits (x : TxFrame) (queued : Bool) : Prop where
  pending : x.valid = true → queued = true
  empty : x.valid = false → x.handle = 0 ∧ x.size = 0

theorem TxFrame.Waits.of_queued {x : TxFrame} {queued : Bool} (h : x.Waits queued) : x.Waits true :=
  ⟨fun _ => rfl, h.empty⟩

namespace Control
variable {running : Bool} {f : Status} {x : TxFrame} {k : Timer}

theorem waits (h : Control running f x k) (htx : f.txActive = false) : x.Waits f.txQueued :=
  ⟨fun hv => (h.claimed hv).resolve_left (by simp [htx]), h.unclaimed⟩

theorem not_transmitting (h : Control running f x k) (hrx : f.rxActive = true) : f.txActive = false := by
  have := h.notBoth
  simpa [hrx] using this

theorem not_receiving (h : Control running f x k) (htx : f.txActive = true) : f.rxActive = false := by
  have := h.notBoth
  simpa [htx] using this

/-- The control part of a block that receives. -/
theorem of_receiving (hrx : f.rxActive = true) (htx : f.txActive = false) (hx : x.Waits f.txQueued)
    (hk : k.kind = .hdrCheck ∨ k.kind = .frameTimeout) : Control true f x k where
  notBoth := by simp [htx]
  beforeInit := nofun
  receiving _ := hk
  transmitting := by simp [htx]
  waiting := by simp [hrx]
  claimed hv := .inr (hx.pending hv)
  unclaimed := hx.empty
  emptySlot hnone := by simp [hnone] at hk

/-- The control part of a block that transmits. -/
theorem of_transmitting (hrx : f.rxActive = false) (htx : f.txActive = true) (hx : x.valid = true) :
    Control true f x { kind := .none, delayUs := 0 } where
  notBoth := by simp [hrx]
  beforeInit := nofun
  receiving := by simp [hrx]
  transmitting _ := ⟨hx, rfl⟩
  waiting := by simp [htx]
  claimed _ := .inl htx
  unclaimed := by simp [hx]
  emptySlot _ := rfl

/-- The control part of a block whose last retime found no activity. -/
theorem of_retimed (c : Config) (rnd : Byte) (hrx : f.rxActive = false) (htx : f.txActive = false)
    (hx : x.Waits f.txQueued) : Control true f x (armedAfter c f rnd) where
  notBoth := by simp [hrx]
  beforeInit := nofun
  receiving := by simp [hrx]
  transmitting := by simp [htx]
  waiting _ _ _ := by simp [armedAfter_kind, htx]
  claimed hv := .inr (hx.pending hv)
  unclaimed := hx.empty
  emptySlot hnone := by
    rw [armedAfter_kind] at hnone
    split at hnone <;> cases hnone

/-- The control part of a block whose reception was completed or abandoned (R104, R131). -/
theorem of_reception_ended (c : Config) (rnd : Byte) (htx : f.txActive = false) (hx : x.Waits f.txQueued) :
    Control true { f with rxActive := false } x (armedAfter c { f with rxActive := false } rnd) :=
  .of_retimed c rnd rfl htx hx

/-- The header check and the frame timeout are armed only for a reception. -/
theorem rxActive_of_supervised (h : Control true f x k) (hk : k.kind = .hdrCheck ∨ k.kind = .frameTimeout) :
    f.rxActive = true := by
  by_contra hrx
  have hrx : f.rxActive = false := by simpa using hrx
  cases htx : f.txActive with
  | true => simp [(h.transmitting htx).2] at hk
  | false =>
    have hwait := h.waiting rfl hrx htx
    split at hwait <;> simp [hwait] at hk

/-- The flush and the tick are armed only on a bus with no activity. -/
theorem inactive_of_scheduled (h : Control running f x k) (hk : k.kind = .flush ∨ k.kind = .tick) :
    f.rxActive = false ∧ f.txActive = false := by
  refine ⟨?_, ?_⟩ <;> rw [← Bool.not_eq_true] <;> intro hactive
  · rcases h.receiving hactive with hk' | hk' <;> simp [hk'] at hk
  · simp [(h.transmitting hactive).2] at hk

end Control

section effects
variable {c : Config} {rnd : Byte} {s : State}

theorem initEffect_control (h : s.Control) (hrun : s.running = false) : (initEffect c rnd s).Control := by
  obtain ⟨hclear, hvalid, -⟩ := h.beforeInit hrun
  obtain ⟨hrx, htx, -⟩ := s.status.allClear_iff.mp hclear
  simpa [State.Control, hrx] using Control.of_retimed c rnd hrx htx (h.waits htx)

/-- A signal during a reception or a transmission only marks the packet, one during the wait for the flush changes nothing,
and one on an idle bus arms the flush (R165). -/
theorem pktReadyEffect_control (h : s.Control) (hrun : s.running = true) : (pktReadyEffect c rnd s).Control := by
  have hcontrol : Control s.running s.status s.txf s.timer := h
  rw [hrun] at hcontrol
  suffices hgoal : Control true { s.status with txQueued := true } s.txf
      (if s.status.allClear then armedAfter c { s.status with txQueued := true } rnd else s.timer) by
    simpa [State.Control, hrun] using hgoal
  cases hrx : s.status.rxActive with
  | true =>
    have htx := h.not_transmitting hrx
    rw [if_neg (by simp [Status.allClear, hrx])]
    exact .of_receiving hrx htx (h.waits htx).of_queued (h.receiving hrx)
  | false =>
    cases htx : s.status.txActive with
    | true =>
      obtain ⟨hvalid, hnone⟩ := h.transmitting htx
      rw [if_neg (by simp [Status.allClear, htx]), show s.timer = ⟨.none, 0⟩ by
        rw [← hnone, ← h.emptySlot hnone]]
      exact .of_transmitting hrx htx hvalid
    | false =>
      cases hq : s.status.txQueued with
      | true =>
        rw [if_neg (by simp [Status.allClear, hq])]
        simpa [← hrx, ← htx, ← hq] using hcontrol
      | false =>
        rw [if_pos (by simp [Status.allClear, hrx, htx, hq])]
        exact .of_retimed c rnd hrx htx (h.waits htx).of_queued

/-- An edge starts a supervised reception, or ends in a retime if the line stayed low (R105, R104). -/
theorem fallEffect_control {w : Bool} (h : s.Control) (hrun : s.running = true) (htx : s.status.txActive = false) :
    (fallEffect c w rnd s).Control := by
  cases w with
  | true =>
    have hgoal : Control true { s.status with rxActive := true } s.txf
        { kind := .hdrCheck, delayUs := BitVec.ofNat 24 c.hdrCheckUs } :=
      .of_receiving rfl htx (h.waits htx) (.inl rfl)
    simpa [State.Control, hrun] using hgoal
  | false => simpa [State.Control, hrun] using Control.of_reception_ended c rnd htx (h.waits htx)

theorem rxdoneEffect_control {e : Bool} {left : Byte} {dacc : Bool} (h : s.Control) (hrun : s.running = true)
    (hrx : s.status.rxActive = true) : (rxdoneEffect c e left dacc rnd s).Control := by
  have htx := h.not_transmitting hrx
  simpa [State.Control, hrun] using Control.of_reception_ended c rnd htx (h.waits htx)

theorem txdoneEffect_control (h : s.Control) (hrun : s.running = true) (htx : s.status.txActive = true) :
    (txdoneEffect c rnd s).Control := by
  have hrx := h.not_receiving htx
  have hgoal : Control true { s.status with txActive := false } { valid := false, handle := 0, size := 0 }
      (armedAfter c { s.status with txActive := false } rnd) :=
    .of_retimed c rnd hrx rfl ⟨by simp, by simp⟩
  simpa [State.Control, hrun, hrx] using hgoal

/-- The header check leaves a supervised reception, or ends it with a retime (R112). -/
theorem hdrCheck_control (hrun : s.running = true) (hrx : s.status.rxActive = true) (htx : s.status.txActive = false)
    (hx : s.txf.Waits s.status.txQueued) : (hdrCheck c rnd s).Control := by
  cases hp : headerPresent c s.rxbuf with
  | true =>
    rw [hdrCheck_present c rnd s hrx hp]
    simpa [State.Control, hrun] using Control.of_receiving hrx htx hx (.inr rfl)
  | false =>
    rw [hdrCheck_absent c rnd s hrx hp]
    simpa [State.Control, hrun] using Control.of_reception_ended c rnd htx hx

theorem frameTimeout_control (hrun : s.running = true) (hrx : s.status.rxActive = true)
    (htx : s.status.txActive = false) (hx : s.txf.Waits s.status.txQueued) : (frameTimeout c rnd s).Control := by
  rw [frameTimeout, if_neg (by simp [hrx])]
  simpa [State.Control, hrun] using Control.of_reception_ended c rnd htx hx

/-- A flush on an idle bus transmits the frame it holds or pulled, or ends in a retime (R170 to R173). -/
theorem flush_control {pull stx : Bool} {fsize handle : Byte} (hrun : s.running = true)
    (hrx : s.status.rxActive = false) (htx : s.status.txActive = false) (hx : s.txf.Waits s.status.txQueued)
    (hslot : s.timer = { kind := .none, delayUs := 0 }) : (flush c pull stx fsize handle rnd s).Control := by
  rw [State.Control, flush_timer c rnd s pull stx fsize handle hrx htx, flush_status c rnd s pull stx fsize handle hrx htx,
    flush_txf c rnd s pull stx fsize handle hrx htx, (flush_frame c rnd s pull stx fsize handle).2, hrun, hslot]
  cases hclaim : s.txf.valid || pull with
  | false =>
    obtain ⟨hvalid, hpull⟩ := Bool.or_eq_false_iff.mp hclaim
    simpa [hvalid, hpull] using Control.of_retimed c rnd rfl rfl ⟨by simp [hvalid], hx.empty⟩
  | true =>
    set x := if !s.txf.valid && pull then { valid := true, handle := handle, size := fsize } else s.txf with hxdef
    have hvalid : x.valid = true := by
      cases hv : s.txf.valid with
      | true => simp [hxdef, hv]
      | false =>
        have hpull : pull = true := by simpa [hv] using hclaim
        simp [hxdef, hv, hpull]
    cases stx with
    | true => exact Control.of_transmitting rfl rfl hvalid
    | false => exact Control.of_retimed c rnd rfl rfl ⟨fun _ => rfl, by simp [hvalid]⟩

/-- A performed fire: what is armed says which flags are set (R41 items 3 to 5), so its continuation is not a deferral. -/
theorem fireEffect_control {pull stx : Bool} {fsize handle : Byte} (h : s.Control) (hrun : s.running = true)
    (harmed : s.timer.kind ≠ .none) : (fireEffect c s.timer.kind pull stx fsize handle rnd s).Control := by
  have hcontrol : Control s.running s.status s.txf s.timer := h
  rw [hrun] at hcontrol
  cases hk : s.timer.kind with
  | none => exact absurd hk harmed
  | hdrCheck =>
    have hrx := hcontrol.rxActive_of_supervised (.inl hk)
    have htx := h.not_transmitting hrx
    exact hdrCheck_control hrun hrx htx (h.waits htx)
  | frameTimeout =>
    have hrx := hcontrol.rxActive_of_supervised (.inr hk)
    have htx := h.not_transmitting hrx
    exact frameTimeout_control hrun hrx htx (h.waits htx)
  | flush =>
    obtain ⟨hrx, htx⟩ := h.inactive_of_scheduled (.inl hk)
    exact flush_control hrun hrx htx (h.waits htx) rfl
  | tick =>
    obtain ⟨hrx, htx⟩ := h.inactive_of_scheduled (.inr hk)
    simpa [State.Control, fireEffect, hrun, hrx] using Control.of_retimed c rnd hrx htx (h.waits htx)

end effects

/-- An event with no cause to stop keeps the control part. -/
theorem effectOf_control {c : Config} {i : Instr} {s : State} (h : s.Control) (hnone : firstCause c i s = none) :
    (effectOf c i s).Control := by
  cases i with
  | rd addr => exact h
  | init rnd =>
    exact initEffect_control h (by simpa [firstCause] using hnone)
  | pktReady rnd =>
    exact pktReadyEffect_control h (by simpa [firstCause] using hnone)
  | fall w rnd =>
    simp only [firstCause] at hnone
    split_ifs at hnone with hrun hrx htx
    exact fallEffect_control h (by simpa using hrun) (by simpa using htx)
  | rxb off data => exact h
  | rxdone e left dacc rnd =>
    simp only [firstCause] at hnone
    split_ifs at hnone with hrun hrx hleft
    exact rxdoneEffect_control h (by simpa using hrun) (by simpa using hrx)
  | txdone rnd =>
    simp only [firstCause] at hnone
    split_ifs at hnone with hrun htx
    exact txdoneEffect_control h (by simpa using hrun) (by simpa using htx)
  | fire pull stx fsize handle rnd =>
    simp only [firstCause] at hnone
    split_ifs at hnone with hrun hk htick
    exact fireEffect_control h (by simpa using hrun) hk

/-! ### The buffer -/

/-- A performed event keeps the canonical form: `FALL` empties the buffer, a performed `RXB` writes inside it, and no other
event touches it (R102, R110). -/
theorem effectOf_wf {c : Config} {i : Instr} {s : State} (h : Memory.wf c.frameMax s.rxbuf = true)
    (hnone : firstCause c i s = none) : Memory.wf c.frameMax (effectOf c i s).rxbuf = true := by
  cases i with
  | fall w rnd => simp [effectOf]
  | rxb off data =>
    simp only [firstCause] at hnone
    split_ifs at hnone with hrun hrx hoff
    exact Memory.wf_write _ _ _ _ (Nat.lt_of_not_le hoff) h
  | init | pktReady | rxdone | txdone | fire | rd => simpa [effectOf] using h

/-! ### The recorder -/

section recorder
variable {c : Config} {s : State}

theorem countLoError_fits (h : s.diag.Fits c) : (s.countLoError c).diag.Fits c := { h with loError := inc_lt c _ }

theorem countTimeout_fits (h : s.diag.Fits c) : (s.countTimeout c).diag.Fits c := { h with timeoutError := inc_lt c _ }

theorem countUartError_fits (h : s.diag.Fits c) : (s.countUartError c).diag.Fits c := { h with uartError := inc_lt c _ }

theorem countReceived_fits (h : s.diag.Fits c) : (s.countReceived c).diag.Fits c :=
  { h with packetsReceived := inc_lt c _ }

theorem countDropped_fits (h : s.diag.Fits c) : (s.countDropped c).diag.Fits c :=
  { h with packetsDropped := inc_lt c _ }

theorem rxTimeout_fits {rnd : Byte} (h : s.diag.Fits c) : (s.rxTimeout c rnd).diag.Fits c := by
  simpa using countTimeout_fits h

theorem settleVerdict_fits {dacc : Bool} {v : Verdict} (h : s.diag.Fits c) : (settleVerdict c dacc v s).diag.Fits c := by
  cases v with
  | silent => exact h
  | frameError => exact countUartError_fits h
  | nextGenDrop => exact countDropped_fits h
  | forward decl =>
    have hreceived : ((s.countReceived c).emit (.dispatch (BitVec.ofNat 16 decl))).diag.Fits c := countReceived_fits h
    cases dacc with
    | false => exact countDropped_fits hreceived
    | true => exact hreceived

theorem startTransmit_fits {stx : Bool} {rnd : Byte} (h : s.diag.Fits c) : (startTransmit c stx rnd s).diag.Fits c := by
  cases stx with
  | true => exact h
  | false => simpa [startTransmit] using countLoError_fits h

theorem hdrCheck_fits {rnd : Byte} (h : s.diag.Fits c) : (hdrCheck c rnd s).diag.Fits c := by
  rcases hdrCheck_cases c rnd s with ⟨-, heq⟩ | ⟨-, -, heq⟩ | ⟨-, -, heq⟩ <;> rw [heq]
  · exact h
  · exact h
  · exact rxTimeout_fits h

theorem frameTimeout_fits {rnd : Byte} (h : s.diag.Fits c) : (frameTimeout c rnd s).diag.Fits c := by
  rcases frameTimeout_cases c rnd s with ⟨-, heq⟩ | ⟨-, heq⟩ <;> rw [heq]
  · exact h
  · exact rxTimeout_fits h

theorem flush_fits {pull stx : Bool} {fsize handle rnd : Byte} (h : s.diag.Fits c) :
    (flush c pull stx fsize handle rnd s).diag.Fits c := by
  simp only [flush]
  split_ifs
  · exact h
  · exact startTransmit_fits h
  · exact startTransmit_fits h
  · simpa using h

/-- Every effect keeps the recorder's form: a counter is written by `inc` alone, and the placeholder by nothing (R26). -/
theorem effectOf_fits {i : Instr} (h : s.diag.Fits c) : (effectOf c i s).diag.Fits c := by
  cases i with
  | fall w rnd =>
    cases w with
    | true => exact h
    | false =>
      simpa [effectOf, fallEffect] using countTimeout_fits h
  | rxdone e left dacc rnd => exact settleVerdict_fits (by simpa using h)
  | fire pull stx fsize handle rnd =>
    simp only [effectOf, fireEffect]
    cases s.timer.kind with
    | none => exact h
    | hdrCheck => exact hdrCheck_fits h
    | frameTimeout => exact frameTimeout_fits h
    | flush => exact flush_fits h
    | tick => simpa using h
  | init | pktReady | rxb | txdone | rd => simpa [effectOf] using h

end recorder

/-! ### The whole invariant -/

/-- A stop keeps the invariant: it writes a cause that is not code 0, and halts (R13, R30). -/
theorem stopped_inv {c : Config} {s : State} {cause : StopCause} {cmds : List Command} (h : Inv c s)
    (hcause : cause ≠ .none) : Inv c (s.stopped cause cmds) := by
  obtain ⟨hcontrol, hbuf, hdiag, -⟩ := (inv_iff c s).mp h
  exact (inv_iff c _).mpr ⟨hcontrol, hbuf, hdiag, by simp [hcause]⟩

/-- An event with no cause to stop keeps the invariant. -/
theorem effectOf_inv {c : Config} {i : Instr} {s : State} (h : Inv c s) (hnone : firstCause c i s = none) :
    Inv c (effectOf c i s) := by
  obtain ⟨hcontrol, hbuf, hdiag, hstop⟩ := (inv_iff c s).mp h
  exact (inv_iff c _).mpr
    ⟨effectOf_control hcontrol hnone, effectOf_wf hbuf hnone, effectOf_fits hdiag, by simpa using hstop⟩

/-- The invariant does not read the ports. -/
theorem Inv.of_ports {c : Config} {s : State} (h : Inv c s) (events out : List Word) (rdata : Option Word) :
    Inv c { s with events := events, out := out, rdata := rdata } :=
  (inv_iff c _).mpr ((inv_iff c s).mp h)

theorem firstCause_beginEvent (c : Config) (i : Instr) (s : State) : firstCause c i s.beginEvent = firstCause c i s := by
  cases i <;> rfl

theorem eventOf_inv {c : Config} {i : Instr} {s t : State} (h : Inv c s) (hnext : eventOf c i s = .next t) : Inv c t := by
  obtain ⟨-, ⟨cause, hcause, rfl⟩ | ⟨hnone, rfl⟩⟩ := eventOf_next hnext
  · exact stopped_inv h (firstCause_ne_none hcause)
  · exact effectOf_inv (h.of_ports s.events [] none) ((firstCause_beginEvent c i s).trans hnone)

/-- Every step keeps the invariant, under every configuration: it waits, stops on an illegal word, or runs an event. -/
theorem stepOf_inv {c : Config} {s t : State} (h : Inv c s) (hnext : stepOf c s = .next t) : Inv c t := by
  obtain ⟨-, ⟨-, rfl⟩ | ⟨w, rest, -, -, rfl⟩ | ⟨w, rest, i, -, -, hrun⟩⟩ := takeNext_next hnext
  · exact h
  · exact stopped_inv (h.of_ports rest s.out s.rdata) (by decide)
  · exact eventOf_inv (h.of_ports rest s.out s.rdata) hrun

/-- Settles O49: a stop keeps the invariant (`stopped_inv`), and so does the effect of an event with no cause to stop
(`effectOf_inv`). -/
theorem everyConfigurationKeepsTheInvariant : Obligations.EveryConfigurationKeepsTheInvariant :=
  fun _ _ _ _ h hnext => eventOf_inv h hnext

/-- Settles O48: the step of the default configuration is one of `stepOf_inv`. -/
theorem stepKeepsTheInvariant : Obligations.StepKeepsTheInvariant :=
  fun s _ h hnext => stepOf_inv h ((step_eq_stepOf s).symm.trans hnext)

/-- Reset leaves nothing active, claimed or armed (R260). -/
theorem reset_control : State.reset.Control := by
  constructor <;> decide

/-- Settles O2: the control elements are those of `reset_control`, the buffer is empty and each counter is 0. -/
theorem resetMeetsTheInvariant : Obligations.ResetMeetsTheInvariant := by
  intro c
  have hzero : 0 < 2 ^ c.cntBits := Nat.two_pow_pos _
  exact (inv_iff c _).mpr ⟨reset_control, rfl, ⟨hzero, hzero, hzero, hzero, hzero, rfl⟩, by decide⟩

/-- The flush is armed exactly for a pending frame on a bus with no activity (R41 item 5). -/
theorem Inv.txQueued_of_flush {c : Config} {s : State} (h : Inv c s) (hk : s.timer.kind = .flush) :
    s.status.txQueued = true := by
  obtain ⟨hcontrol, -⟩ := (inv_iff c s).mp h
  obtain ⟨hrx, htx⟩ := hcontrol.inactive_of_scheduled (.inl hk)
  have hrun : s.running = true := by
    by_contra hrun
    simpa [hk] using (h.beforeInit (by simpa using hrun)).2.2
  by_contra hq
  simpa [hk, hq] using h.waiting hrun hrx htx

/-- Settles O41: what an event does to the flags (`StatusChange`) makes only the nine transitions. The invariant excludes the
rest: a reception starts on a bus that does not transmit, because both activity flags are never set together, and the flush
runs only with a frame pending. -/
theorem phaseTransitions : Obligations.PhaseTransitions := by
  intro c i s t h hnext
  have hbefore := h.notBoth
  have hafter := (eventOf_inv h hnext).notBoth
  cases eventOf_statusChange hnext with
  | kept _ hstatus => exact .inl (by rw [hstatus])
  | marked rnd hstatus =>
    rw [hstatus]
    cases hrx : s.status.rxActive with
    | true => exact .inl (by simp [Status.phase, hrx])
    | false =>
      cases htx : s.status.txActive with
      | true => exact .inl (by simp [Status.phase, hrx, htx])
      | false => cases hq : s.status.txQueued <;> simp [Status.phase, hrx, htx, hq]
  | received rnd hstatus =>
    have htx : s.status.txActive = false := by simpa [hstatus] using hafter
    rw [hstatus]
    cases hrx : s.status.rxActive with
    | true => exact .inl (by simp [Status.phase, hrx])
    | false => cases hq : s.status.txQueued <;> simp [Status.phase, hrx, htx, hq]
  | completed e left dacc rnd hstatus | abandoned pull stx fsize handle rnd hstatus =>
    rw [hstatus]
    cases hrx : s.status.rxActive with
    | false => exact .inl (by simp [Status.phase, hrx])
    | true =>
      have htx : s.status.txActive = false := by simpa [hrx] using hbefore
      cases hq : s.status.txQueued <;> simp [Status.phase, hrx, htx, hq]
  | sent rnd hstatus =>
    rw [hstatus]
    cases htx : s.status.txActive with
    | false => exact .inl (by simp [Status.phase, htx])
    | true =>
      have hrx : s.status.rxActive = false := by simpa [htx] using hbefore
      cases hq : s.status.txQueued <;> simp [Status.phase, hrx, htx, hq]
  | flushed pull stx fsize handle rnd claimed hkind hrx htx hstatus =>
    have hq := h.txQueued_of_flush hkind
    rw [hstatus]
    cases claimed <;> cases stx <;> simp [Status.phase, hrx, htx, hq]

end Sys2Proof.Machine
end

section
/-! PROOFS. The read port (spec/10_state.md R31 to R38): each register's word as a number, and the map. -/

namespace Sys2Proof.Machine

theorem toNat_statusWord (s : State) :
    (statusWord s).toNat = s.status.rxActive.toNat + 2 * s.status.txActive.toNat + 4 * s.status.txQueued.toNat := by
  rw [statusWord, toNat_place _ _ (by decide)]
  cases hrx : s.status.rxActive <;> cases htx : s.status.txActive <;> cases hq : s.status.txQueued <;>
    simp [Status.bits, hrx, htx, hq]

theorem Status.not_allClear (f : Status) : (!f.allClear) = (f.rxActive || f.txActive || f.txQueued) := by
  simp [Status.allClear, Bool.not_and]

theorem toNat_phyStateWord (s : State) :
    (phyStateWord s).toNat =
      s.running.toNat + 2 * (s.status.rxActive || s.status.txActive || s.status.txQueued).toNat := by
  rw [phyStateWord, Status.not_allClear,
    toNat_or_place _ _ 0 1 _ (by decide) (toNat_place _ 1 (by decide)) (by decide), toNat_place _ _ (by decide),
    BitVec.toNat_ofBool, BitVec.toNat_ofBool]
  omega

theorem toNat_txFrameWord (s : State) :
    (txFrameWord s).toNat = if s.txf.valid then 2 ^ 31 + s.txf.size.toNat * 2 ^ 8 + s.txf.handle.toNat else 0 := by
  have hvalid : (place 1#1 31).toNat = 2 ^ 31 := by decide
  have hsize : (place 1#1 31 ||| place s.txf.size 8).toNat = 2 ^ 31 + s.txf.size.toNat * 2 ^ 8 := by
    rw [toNat_or_place _ _ 8 31 1 (by decide) (by omega) (by decide), hvalid]
  have hhandle : (place 1#1 31 ||| place s.txf.size 8 ||| place s.txf.handle 0).toNat =
      2 ^ 31 + s.txf.size.toNat * 2 ^ 8 + s.txf.handle.toNat * 2 ^ 0 := by
    rw [toNat_or_place _ _ 0 8 (2 ^ 23 + s.txf.size.toNat) (by decide) (by omega) (by decide), hsize]
  unfold txFrameWord
  split
  · rw [hhandle, pow_zero, mul_one]
  · rfl

theorem toNat_timerSlotWord (s : State) :
    (timerSlotWord s).toNat = s.timer.kind.code.toNat * 2 ^ 28 + s.timer.delayUs.toNat := by
  rw [timerSlotWord, toNat_or_place _ _ 0 28 _ (by decide) (toNat_place _ 28 (by decide)) (by decide),
    toNat_place _ _ (by decide), pow_zero, mul_one]

theorem toNat_place_byte (b : Byte) : (place b 0).toNat = b.toNat := by
  rw [toNat_place _ _ (by decide), pow_zero, mul_one]

/-- A read of a live block answers the map's value and changes nothing but the output ports (R215). -/
theorem rdEvent_live (c : Config) (addr : BitVec 12) {s : State} (h : Live s) :
    rdEvent c addr s = .next { s with out := [], rdata := some (regmap c addr s) } := by
  rw [rdEvent, takeEvent_live _ h]
  rfl

/-- Settles O30: a read answers `regmap` (`rdEvent_live`), whose words are the numbers of the map's fields. -/
theorem rdReadsTheMap : Obligations.RdReadsTheMap := by
  rintro addr s _ hlive rfl
  refine ⟨regmap defaultConfig addr s, rdEvent_live defaultConfig addr hlive, ?_⟩
  simp only [regmap, apply_ite BitVec.toNat, BitVec.toNat_eq, toNat_statusWord, toNat_phyStateWord, toNat_txFrameWord,
    toNat_timerSlotWord, toNat_place_byte]
  rfl

end Sys2Proof.Machine
end

section
/-! PROOFS. The decoder reads back every event's word (spec/30_encoding.md R70 to R81): each test of an opcode or of
reserved bits, and each field, is a field of the encoding's placed parts. -/

namespace Sys2Proof

theorem decode_encode (i : Instr) : decode (encode i) = some i := by
  cases i with
  | init | pktReady | fall | rxb | rxdone | txdone | fire | rd =>
    simp (disch := omega) [encode, decode, field_or, field_place, field_place_of_disjoint, bit_or, bit_place_ofBool,
      bit_place_of_disjoint]

end Sys2Proof
end

section
/-! PROOFS. Taking the next event from the input port (spec/20_memory.md R61, spec/30_encoding.md R83). -/

namespace Sys2Proof.Machine

/-- A halted block takes nothing from the port (R233). -/
theorem takeNext_halted (run : Instr → State → Result) {s : State} (h : s.halted = true) :
    takeNext run s = .fault .halted := by
  rw [takeNext, if_pos h]

/-- Every event begins with the check of `HALTED` (R238 check 1). -/
theorem eventOf_halted (c : Config) (i : Instr) {s : State} (h : s.halted = true) :
    eventOf c i s = .fault .halted := by
  cases i with
  | init | rd => simp only [eventOf, initEvent, rdEvent, takeEvent_halted _ h]
  | pktReady | fall | rxb | rxdone | txdone | fire =>
    simp only [eventOf, pktReadyEvent, fallEvent, rxbEvent, rxdoneEvent, txdoneEvent, fireEvent, takeRunningEvent,
      takeEvent_halted _ h]

/-- A live block takes the word at the head of the port and runs the event it spells (R61). -/
theorem takeNext_live (run : Instr → State → Result) {s : State} {w : Word} {rest : List Word} {i : Instr}
    (hlive : s.halted = false) (hevents : s.events = w :: rest) (hdecode : decode w = some i) :
    takeNext run s = run i { s with events := rest } := by
  simp [takeNext, hlive, hevents, hdecode]

/-- `HALTED` is checked before the port and again by the event, with one answer, so a step is its event, halted or not. -/
theorem stepOf_of_decode (c : Config) {s : State} {w : Word} {rest : List Word} {i : Instr}
    (hevents : s.events = w :: rest) (hdecode : decode w = some i) :
    stepOf c s = eventOf c i { s with events := rest } := by
  rcases Bool.eq_false_or_eq_true s.halted with hh | hh
  · have hevent : eventOf c i { s with events := rest } = .fault .halted := eventOf_halted c i hh
    rw [stepOf, takeNext_halted _ hh, hevent]
  · exact takeNext_live _ hh hevents hdecode

/-- Settles O10: `stepOf_of_decode` at the default configuration. -/
theorem stepRunsTheNextEvent : Obligations.StepRunsTheNextEvent := by
  intro s w rest i hevents hdecode
  rw [step_eq_stepOf, exec_eq_eventOf]
  exact stepOf_of_decode defaultConfig hevents hdecode

/-- All 32 bits of an event word are offered: nothing of it is cut off. -/
theorem State.withFetchWord_encode (s : State) (i : Instr) :
    s.withFetchWord 32 (encode i).toNat = s.offer (encode i) := by
  rw [State.withFetchWord, Nat.mod_eq_of_lt (encode i).isLt, BitVec.ofNat_toNat, BitVec.setWidth_eq]

/-- Settles O11: the word offered decodes to its event (`decode_encode`), and taking it restores the port. -/
theorem offeredEventIsRunNext : Obligations.OfferedEventIsRunNext := by
  intro i s
  rw [s.withFetchWord_encode i]
  exact stepRunsTheNextEvent (s.offer (encode i)) (encode i) s.events i rfl (decode_encode i)

end Sys2Proof.Machine
end

section
/-! PROOFS. Who writes the receive buffer (spec/20_memory.md R50, R67). -/

namespace Sys2Proof.Machine

/-- The buffer after a performed event: zeroed by `FALL` (R102), written in one byte by `RXB` (R110), and as it was after
any other. -/
theorem effectOf_rxbuf (c : Config) (i : Instr) (s : State) :
    (effectOf c i s).rxbuf = s.rxbuf ∨
      (∃ w rnd, i = .fall w rnd) ∧ (effectOf c i s).rxbuf = Memory.zeroed ∨
      ∃ off data, i = .rxb off data ∧ (effectOf c i s).rxbuf = s.rxbuf.write off.toNat data := by
  cases i with
  | fall w rnd => exact .inr (.inl ⟨⟨w, rnd, rfl⟩, by simp [effectOf]⟩)
  | rxb off data => exact .inr (.inr ⟨off, data, rfl, rfl⟩)
  | init | pktReady | rxdone | txdone | fire | rd => exact .inl (by simp [effectOf])

/-- Settles O35: a stop leaves the buffer, and an effect does to it what `effectOf_rxbuf` says; the byte that `RXB` writes
is the only one its write changes (`Memory.read_write_of_ne`). -/
theorem onlyFallAndRxbWriteTheBuffer : Obligations.OnlyFallAndRxbWriteTheBuffer := by
  intro c i s t h a
  obtain ⟨-, ⟨cause, -, rfl⟩ | ⟨-, rfl⟩⟩ := eventOf_next h
  · exact .inl rfl
  · rcases effectOf_rxbuf c i s.beginEvent with hkept | ⟨hfall, hzeroed⟩ | ⟨off, data, hrxb, hwritten⟩
    · exact .inl (by rw [hkept, State.beginEvent_rxbuf])
    · exact .inr (.inl ⟨hfall, by rw [hzeroed, Memory.read_zeroed]⟩)
    · by_cases ha : a = off.toNat
      · exact .inr (.inr ⟨off, data, hrxb, ha⟩)
      · exact .inl (by rw [hwritten, Memory.read_write_of_ne _ _ _ _ ha, State.beginEvent_rxbuf])

end Sys2Proof.Machine
end

section
/-! PROOFS. The words of the events and of the commands as numbers (spec/30_encoding.md R70 to R81, R85 to R87). -/

namespace Sys2Proof

/-- A field placed below everything a word holds: the word's number in units of `2^k` becomes one in units of the
field's own place. So the number of a word is read field by field, from the opcode down. -/
theorem toNat_or_place_below {n : Nat} {a : Word} {k x : Nat} (ha : a.toNat = x * 2 ^ k) (v : BitVec n) (lo : Nat)
    (hk : lo + n ≤ k := by decide) (hword : lo + n ≤ 32 := by decide) :
    (a ||| place v lo).toNat = (x * 2 ^ (k - lo) + v.toNat) * 2 ^ lo := by
  rw [toNat_or_place a v lo k x hword ha hk, ha, Nat.add_mul, Nat.mul_assoc, ← Nat.pow_add,
    Nat.sub_add_cancel (by omega)]

/-- The code in bits 31:28 of an event word and of a command word (R70, R85). -/
theorem toNat_place_opcode (op : BitVec 4) : (place op 28).toNat = op.toNat * 2 ^ 28 := toNat_place op 28 (by decide)

/-- The number of a word with one field below its opcode, at bit 0. -/
theorem toNat_opcode_or_place {n : Nat} (op : BitVec 4) (v : BitVec n) (h : n ≤ 28 := by decide) :
    (place op 28 ||| place v 0).toNat = op.toNat * 2 ^ 28 + v.toNat := by
  rw [toNat_or_place_below (toNat_place_opcode op) v 0 (by omega) (by omega), pow_zero, mul_one]

/-- Settles O52: each word's number is read off its encoding with `toNat_or_place_below`. -/
theorem eventWordsAsTheFormatsSay : Obligations.EventWordsAsTheFormatsSay := by
  refine ⟨?init, ?pktReady, ?fall, ?rxb, ?rxdone, ?txdone, ?fire, ?rd⟩
  case init | pktReady | txdone | rd => exact toNat_opcode_or_place _
  case fall =>
    intro w rnd
    have hw := toNat_or_place_below (toNat_place_opcode 0x3#4) (BitVec.ofBool w) 8
    have hword := toNat_or_place_below hw rnd 0
    rw [BitVec.toNat_ofBool] at hword
    rw [encode, hword, BitVec.toNat_ofNat]
    omega
  case rxb =>
    intro off data
    have hoff := toNat_or_place_below (toNat_place_opcode 0x4#4) off 16
    have hword := toNat_or_place_below hoff data 8
    rw [encode, hword, BitVec.toNat_ofNat]
    omega
  case rxdone =>
    intro e left dacc rnd
    have he := toNat_or_place_below (toNat_place_opcode 0x5#4) (BitVec.ofBool e) 24
    have hleft := toNat_or_place_below he left 16
    have hdacc := toNat_or_place_below hleft (BitVec.ofBool dacc) 8
    have hword := toNat_or_place_below hdacc rnd 0
    rw [BitVec.toNat_ofBool, BitVec.toNat_ofBool] at hword
    rw [encode, hword, BitVec.toNat_ofNat]
    omega
  case fire =>
    intro pull stx fsize handle rnd
    have hpull := toNat_or_place_below (toNat_place_opcode 0x7#4) (BitVec.ofBool pull) 27
    have hstx := toNat_or_place_below hpull (BitVec.ofBool stx) 26
    have hfsize := toNat_or_place_below hstx fsize 16
    have hhandle := toNat_or_place_below hfsize handle 8
    have hword := toNat_or_place_below hhandle rnd 0
    rw [BitVec.toNat_ofBool, BitVec.toNat_ofBool] at hword
    rw [encode, hword, BitVec.toNat_ofNat]
    omega

/-- Settles O8: as O52, for the words of the commands; the codes are the definitions' own. -/
theorem commandWordsAsTheMapSays : Obligations.CommandWordsAsTheMapSays := by
  refine ⟨?startRx, ?flushRx, ?disableRx, ?waitHigh, ?startTx, ?armTimer, ?pullFrame, ?frameSent, ?dispatch, ?abort,
    ?codes⟩
  case startRx | waitHigh | frameSent | dispatch => exact toNat_opcode_or_place _
  case abort => exact fun cause => toNat_opcode_or_place _ cause.code
  case flushRx | disableRx | pullFrame => exact toNat_place_opcode _
  case startTx =>
    intro handle n
    have hhandle := toNat_or_place_below (toNat_place_opcode 0x5#4) handle 16
    have hword := toNat_or_place_below hhandle n 0
    rw [Command.word, hword, BitVec.toNat_ofNat]
    omega
  case armTimer =>
    intro kind us
    have hkind := toNat_or_place_below (toNat_place_opcode 0x6#4) kind.code 24
    have hword := toNat_or_place_below hkind us 0
    rw [Command.word, hword, BitVec.toNat_ofNat]
    omega
  case codes => decide

/-- Settles O5: `decode_encode`, where each test and each field of the decoder reads one placed part of the encoding. -/
theorem decodeReadsBackEveryEvent : Obligations.DecodeReadsBackEveryEvent := decode_encode

theorem toNat_field (w : Word) (lo n : Nat) : (field w lo n).toNat = w.toNat / 2 ^ lo % 2 ^ n := by
  rw [field, BitVec.extractLsb'_toNat, Nat.shiftRight_eq_div_pow]

theorem toNat_bit (w : Word) (i : Nat) : (bit w i).toNat = w.toNat / 2 ^ i % 2 := by
  rw [bit, BitVec.getLsbD, Nat.toNat_testBit]

/-- A test the decoder makes on a field, as a fact about the word's number. -/
theorem field_eq_ofNat_iff (w : Word) (lo n v : Nat) :
    field w lo n = BitVec.ofNat n v ↔ w.toNat / 2 ^ lo % 2 ^ n = v % 2 ^ n := by
  rw [BitVec.toNat_eq, toNat_field, BitVec.toNat_ofNat]

/-- Settles O6: what the decoder tests and reads are digits of the word's number, and the event's word is the sum of its
fields at their places (`eventWordsAsTheFormatsSay`); so each format is a fact of arithmetic. -/
theorem decodedWordsAreTheirEventsWords : Obligations.DecodedWordsAreTheirEventsWords := by
  obtain ⟨hinit, hpktReady, hfall, hrxb, hrxdone, htxdone, hfire, hrd⟩ := eventWordsAsTheFormatsSay
  intro w i h
  have hw := w.isLt
  apply BitVec.eq_of_toNat_eq
  simp only [decode, BitVec.ofNat_eq_ofNat, field_eq_ofNat_iff] at h
  split_ifs at h
  all_goals
    cases h
    simp only [hinit, hpktReady, hfall, hrxb, hrxdone, htxdone, hfire, hrd, toNat_field, toNat_bit]
    omega

end Sys2Proof
end

section
/-! PROOFS. The decoder decides exactly the formats (spec/30_encoding.md R80). -/

namespace Sys2Proof

/-- A field of a masked word is the field masked. -/
theorem field_and (a b : Word) (lo n : Nat) : field (a &&& b) lo n = field a lo n &&& field b lo n := by
  apply BitVec.eq_of_getLsbD_eq
  intro i hi
  simp only [BitVec.getLsbD_and, getLsbD_field, hi, decide_true, Bool.true_and]

/-- Where the mask of a format is all ones, a word of the format has the bits of its match. -/
theorem Format.field_of_holds {f : Format} {w : Word} (h : f.holds w = true) (lo n : Nat)
    (hmask : field f.mask lo n = BitVec.allOnes n) : field w lo n = field f.matchBits lo n := by
  rw [← beq_iff_eq.mp h, field_and, hmask, BitVec.and_allOnes]

/-- The mask of every format covers the opcode. -/
theorem opcode_of_holds {f : Format} (hf : f ∈ formats) {w : Word} (h : f.holds w = true) :
    field w 28 4 = field f.matchBits 28 4 :=
  f.field_of_holds h 28 4 ((by decide : ∀ f ∈ formats, field f.mask 28 4 = BitVec.allOnes 4) f hf)

/-- No word is of two formats: a format's opcode is its own (R71). -/
theorem format_unique {f g : Format} (hf : f ∈ formats) (hg : g ∈ formats) {w : Word} (hfw : f.holds w = true)
    (hgw : g.holds w = true) : g = f := by
  have hopcodes : ∀ f ∈ formats, ∀ g ∈ formats, field g.matchBits 28 4 = field f.matchBits 28 4 → g = f := by decide
  exact hopcodes f hf g hg ((opcode_of_holds hg hgw).symm.trans (opcode_of_holds hf hfw))

/-- Every event's word is legal: the laws of Laws/PerInstr.lean, event by event. -/
theorem legal_encode (i : Instr) : legal (encode i) = true := by
  cases i with
  | init rnd => exact Laws.EncodeLegal.init rnd
  | pktReady rnd => exact Laws.EncodeLegal.pktReady rnd
  | fall w rnd => exact Laws.EncodeLegal.fall w rnd
  | rxb off data => exact Laws.EncodeLegal.rxb off data
  | rxdone e left dacc rnd => exact Laws.EncodeLegal.rxdone e left dacc rnd
  | txdone rnd => exact Laws.EncodeLegal.txdone rnd
  | fire pull stx fsize handle rnd => exact Laws.EncodeLegal.fire pull stx fsize handle rnd
  | rd addr => exact Laws.EncodeLegal.rd addr

/-- A word of a format decodes: the format's mask covers the opcode and every reserved bit that the decoder tests. -/
theorem isSome_decode_of_holds {f : Format} (hf : f ∈ formats) {w : Word} (h : f.holds w = true) :
    (decode w).isSome = true := by
  have hfield := f.field_of_holds h
  simp only [formats, List.mem_cons, List.not_mem_nil, or_false] at hf
  rcases hf with rfl | rfl | rfl | rfl | rfl | rfl | rfl | rfl
  · have hop : field w 28 4 = 0x1 := hfield 28 4 rfl
    have hzero : field w 8 20 = 0 := hfield 8 20 rfl
    simp [decode, hop, hzero]
  · have hop : field w 28 4 = 0x2 := hfield 28 4 rfl
    have hzero : field w 8 20 = 0 := hfield 8 20 rfl
    simp [decode, hop, hzero]
  · have hop : field w 28 4 = 0x3 := hfield 28 4 rfl
    have hzero : field w 9 19 = 0 := hfield 9 19 rfl
    simp [decode, hop, hzero]
  · have hop : field w 28 4 = 0x4 := hfield 28 4 rfl
    have hzero : field w 24 4 = 0 ∧ field w 0 8 = 0 := ⟨hfield 24 4 rfl, hfield 0 8 rfl⟩
    simp [decode, hop, hzero]
  · have hop : field w 28 4 = 0x5 := hfield 28 4 rfl
    have hzero : field w 25 3 = 0 ∧ field w 9 7 = 0 := ⟨hfield 25 3 rfl, hfield 9 7 rfl⟩
    simp [decode, hop, hzero]
  · have hop : field w 28 4 = 0x6 := hfield 28 4 rfl
    have hzero : field w 8 20 = 0 := hfield 8 20 rfl
    simp [decode, hop, hzero]
  · have hop : field w 28 4 = 0x7 := hfield 28 4 rfl
    have hzero : field w 24 2 = 0 := hfield 24 2 rfl
    simp [decode, hop, hzero]
  · have hop : field w 28 4 = 0x8 := hfield 28 4 rfl
    have hzero : field w 12 16 = 0 := hfield 12 16 rfl
    simp [decode, hop, hzero]

theorem legal_iff (w : Word) : legal w = true ↔ ∃ f ∈ formats, f.holds w = true := List.any_eq_true

/-- The decoder takes exactly the legal words. -/
theorem isSome_decode (w : Word) : (decode w).isSome = legal w := by
  rw [Bool.eq_iff_iff]
  constructor
  · intro hsome
    obtain ⟨i, hi⟩ := Option.isSome_iff_exists.mp hsome
    exact decodedWordsAreTheirEventsWords w i hi ▸ legal_encode i
  · intro hlegal
    obtain ⟨f, hf, hholds⟩ := (legal_iff w).mp hlegal
    exact isSome_decode_of_holds hf hholds

theorem decode_eq_none_of_not_legal {w : Word} (h : legal w = false) : decode w = none := by
  rwa [← isSome_decode, Option.isSome_eq_false_iff, Option.isNone_iff_eq_none] at h

end Sys2Proof

namespace Sys2Proof.Machine

/-- A live block that is offered a word that spells no event stops, the word taken from the port (R80). -/
theorem takeNext_of_decode_eq_none (run : Instr → State → Result) {s : State} {w : Word} {rest : List Word}
    (hlive : Live s) (hevents : s.events = w :: rest) (hdecode : decode w = none) :
    takeNext run s = .next ({ s with events := rest }.stopped .illegalEvent []) := by
  simp only [takeNext, show s.halted = false from hlive, hevents, hdecode, Bool.false_eq_true, if_false]
  rfl

/-- Settles O7: the decoder decides the formats (`isSome_decode`), which exclude each other by their opcodes. -/
theorem illegalWordsStopTheBlock : Obligations.IllegalWordsStopTheBlock := by
  refine ⟨isSome_decode, fun w hlegal => ?unique, fun s w rest hlive hevents hillegal => ?stops, rfl⟩
  case unique =>
    obtain ⟨f, hf, hholds⟩ := (legal_iff w).mp hlegal
    exact ⟨f, hf, hholds, fun g hg => format_unique hf hg hholds⟩
  case stops => exact takeNext_of_decode_eq_none exec hlive hevents (decode_eq_none_of_not_legal hillegal)

end Sys2Proof.Machine
end

section
/-! PROOFS. A command is read back from its word (spec/30_encoding.md R85 to R87). -/

namespace Sys2Proof

/-- The continuation whose code a `KIND` field holds (R24); none armed for a reserved code. -/
def kindOfCode : BitVec 4 → TimerKind
  | 1 => .hdrCheck
  | 2 => .frameTimeout
  | 3 => .flush
  | 4 => .tick
  | _ => .none

/-- The cause whose code a `CAUSE` field holds (R230); no stop for a reserved code. -/
def causeOfCode : BitVec 4 → StopCause
  | 1 => .fatalRxOverlap
  | 2 => .fatalTickDuringTx
  | 3 => .fatalEdgeDuringTx
  | 8 => .envNotRunning
  | 9 => .envReinit
  | 10 => .envSpuriousTimer
  | 11 => .envSpuriousRxDone
  | 12 => .envSpuriousTxDone
  | 13 => .envRxDataUnarmed
  | 14 => .envBadField
  | 15 => .illegalEvent
  | _ => .none

theorem kindOfCode_code (k : TimerKind) : kindOfCode k.code = k := by
  cases k <;> rfl

theorem causeOfCode_code (cause : StopCause) : causeOfCode cause.code = cause := by
  cases cause <;> rfl

/-- The command a word names, read as R85 to R87 say: what a collaborator makes of a word on the output port. -/
def readCommand (c : Word) : Option Command :=
  match commandCode c with
  | 0x1 => some (.startRx (field c 0 16))
  | 0x2 => some .flushRx
  | 0x3 => some .disableRx
  | 0x4 => some (.waitHigh (field c 0 16))
  | 0x5 => some (.startTx (field c 16 8) (field c 0 16))
  | 0x6 => some (.armTimer (kindOfCode (field c 24 4)) (field c 0 24))
  | 0x7 => some .pullFrame
  | 0x8 => some (.frameSent (field c 0 8))
  | 0x9 => some (.dispatch (field c 0 16))
  | 0xA => some (.abort (causeOfCode (field c 0 4)))
  | _ => none

/-- Each command's word keeps the command's code and every field of it apart from the others. -/
theorem readCommand_word (cmd : Command) : readCommand cmd.word = some cmd := by
  cases cmd with
  | startRx | flushRx | disableRx | waitHigh | startTx | armTimer | pullFrame | frameSent | dispatch | abort =>
    simp (disch := omega) [readCommand, Command.word, commandCode, field_or, field_place, field_place_of_disjoint,
      kindOfCode_code, causeOfCode_code]

/-- Settles O9: a command is read back from its word. -/
theorem commandWordsNameOneCommand : Obligations.CommandWordsNameOneCommand := by
  intro a b h
  have hread := congrArg readCommand h
  rw [readCommand_word, readCommand_word] at hread
  exact Option.some.inj hread

end Sys2Proof
end

section
/-! PROOFS. Every event of a live block in one equation, and which of an event's fields decide its answer
(spec/30_encoding.md R78, R82). -/

namespace Sys2Proof.Machine

theorem takeEvent_answers {s : State} {run : State → Result} (hlive : Live s) (hrun : ∀ s0, ∃ t, run s0 = .next t) :
    ∃ t, takeEvent s run = .next t := by
  rw [takeEvent_live run hlive]
  exact hrun _

theorem takeRunningEvent_answers {s : State} {run : State → Result} (hlive : Live s)
    (hrun : ∀ s0, ∃ t, run s0 = .next t) : ∃ t, takeRunningEvent s run = .next t := by
  refine takeEvent_answers hlive fun s0 => ?_
  split
  · exact hrun s0
  · exact ⟨_, rfl⟩

/-- A live block answers every event with a next state: a stop is one too. -/
theorem eventOf_answers (c : Config) (i : Instr) {s : State} (hlive : Live s) : ∃ t, eventOf c i s = .next t := by
  unfold eventOf
  cases i with
  | init rnd =>
    refine takeEvent_answers hlive fun s0 => ?_
    split <;> exact ⟨_, rfl⟩
  | rd addr => exact takeEvent_answers hlive fun s0 => ⟨_, rfl⟩
  | pktReady rnd => exact takeRunningEvent_answers hlive fun s0 => ⟨_, rfl⟩
  | fall | rxb | rxdone | txdone | fire =>
    refine takeRunningEvent_answers hlive fun s0 => ?_
    split_ifs <;> exact ⟨_, rfl⟩

/-- The answer of a live block: the stop with the event's first cause, or the event's effect (R238). -/
theorem eventOf_live (c : Config) (i : Instr) {s : State} (hlive : Live s) :
    eventOf c i s = .next ((firstCause c i s).elim (effectOf c i s.beginEvent)
      fun cause => s.stopped cause (stopCommands cause)) := by
  obtain ⟨t, ht⟩ := eventOf_answers c i hlive
  obtain ⟨-, ⟨cause, hcause, rfl⟩ | ⟨hnone, rfl⟩⟩ := eventOf_next ht
  · rw [ht, hcause, Option.elim_some]
  · rw [ht, hnone, Option.elim_none]

/-- Two events that are stopped alike, and have one effect when they are not, answer alike. -/
theorem eventOf_congr {c : Config} {i j : Instr} {s : State} (hcause : firstCause c i s = firstCause c j s)
    (heffect : firstCause c j s = none → effectOf c i s.beginEvent = effectOf c j s.beginEvent) :
    eventOf c i s = eventOf c j s := by
  cases hh : s.halted
  · rw [eventOf_live c i hh, eventOf_live c j hh, hcause]
    cases hj : firstCause c j s with
    | none => rw [Option.elim_none, Option.elim_none, heffect hj]
    | some cause => rfl
  · rw [eventOf_halted c i hh, eventOf_halted c j hh]

/-! ### The answer fields of `FIRE` -/

section fire
variable (c : Config) (pull stx pull' stx' : Bool) (fsize handle fsize' handle' rnd : Byte) (s : State)

/-- No continuation but the flush reads an answer field (R78). -/
theorem fireEffect_of_ne_flush {kind : TimerKind} (hkind : kind ≠ .flush) :
    fireEffect c kind pull stx fsize handle rnd s = fireEffect c kind pull' stx' fsize' handle' rnd s := by
  cases kind with
  | flush => exact absurd rfl hkind
  | none | hdrCheck | frameTimeout | tick => rfl

/-- The flush pulls no frame while one is claimed (R170). -/
theorem flush_of_claimed (hvalid : s.txf.valid = true) :
    flush c pull stx fsize handle rnd s = flush c pull' stx fsize' handle' rnd s := by
  simp [flush, hvalid]

/-- With a frame claimed, no continuation reads the pull's fields (R78). -/
theorem fireEffect_of_claimed (kind : TimerKind) (hvalid : s.txf.valid = true) :
    fireEffect c kind pull stx fsize handle rnd s = fireEffect c kind pull' stx fsize' handle' rnd s := by
  cases kind with
  | flush => exact flush_of_claimed c pull stx pull' fsize handle fsize' handle' rnd s.emptyTimer hvalid
  | none | hdrCheck | frameTimeout | tick => rfl

end fire

/-- Settles O45: the checks of `FIRE` read no field (`eventOf_congr`), and the effect reads the answer fields in the
flush alone. -/
theorem fireFieldsAreReadOnlyByTheFlush : Obligations.FireFieldsAreReadOnlyByTheFlush := by
  intro c pull stx pull' stx' fsize handle fsize' handle' rnd s
  constructor
  · intro hkind
    exact eventOf_congr rfl fun _ =>
      fireEffect_of_ne_flush c pull stx pull' stx' fsize handle fsize' handle' rnd s.beginEvent hkind
  · intro hvalid
    exact eventOf_congr rfl fun _ =>
      fireEffect_of_claimed c pull stx pull' fsize handle fsize' handle' rnd s.beginEvent s.timer.kind hvalid

/-! ### The random draw -/

/-- The output names no `ARM_TIMER(FLUSH)`, whatever its delay. -/
def ArmsNoFlush (out : List Word) : Prop := ∀ us, (Command.armTimer .flush us).word ∉ out

section draw
variable (c : Config) (rnd r : Byte) (s : State)

/-- No check of R238 reads the draw. -/
theorem firstCause_withRnd (i : Instr) : firstCause c (withRnd r i) s = firstCause c i s := by
  cases i <;> rfl

/-- A retime reads the draw only in the backoff of the flush it arms (R160, R161). -/
theorem State.retime_draw (mask : ClearMask) (h : ArmsNoFlush (s.retime c mask rnd).out) :
    s.retime c mask r = s.retime c mask rnd := by
  rcases s.retime_cases c mask rnd with ⟨hrx, hret⟩ | ⟨-, -, hret⟩ | ⟨hrx, hidle, hret⟩
  · rw [hret, s.retime_receiving c mask r hrx]
  · exact absurd (by simp [hret]) (h (BitVec.ofNat 24 (backoff c rnd)))
  · rw [hret, s.retime_idle c mask r hrx hidle]

theorem State.rxTimeout_draw (h : ArmsNoFlush (s.rxTimeout c rnd).out) : s.rxTimeout c r = s.rxTimeout c rnd :=
  State.retime_draw c rnd r _ _ h

theorem State.txDone_draw (h : ArmsNoFlush (s.txDone c rnd).out) : s.txDone c r = s.txDone c rnd :=
  State.retime_draw c rnd r _ _ h

/-- What a verdict emits comes after what was emitted before it. -/
theorem settleVerdict_out_subset (dacc : Bool) (v : Verdict) : s.out ⊆ (settleVerdict c dacc v s).out := by
  cases v with
  | forward decl => cases dacc <;> simp [settleVerdict]
  | silent | frameError | nextGenDrop => simp [settleVerdict]

theorem pktReadyEffect_draw (h : ArmsNoFlush (pktReadyEffect c rnd s).out) :
    pktReadyEffect c r s = pktReadyEffect c rnd s := by
  simp only [pktReadyEffect] at h ⊢
  split_ifs at h ⊢
  · exact State.retime_draw c rnd r _ _ h
  · rfl

theorem fallEffect_draw (w : Bool) (h : ArmsNoFlush (fallEffect c w rnd s).out) :
    fallEffect c w r s = fallEffect c w rnd s := by
  simp only [fallEffect] at h ⊢
  split_ifs at h ⊢
  · rfl
  · exact State.rxTimeout_draw c rnd r _ h

/-- The retime comes before the verdict, which only adds to the output (R131). -/
theorem rxdoneEffect_draw (e : Bool) (left : Byte) (dacc : Bool)
    (h : ArmsNoFlush (rxdoneEffect c e left dacc rnd s).out) :
    rxdoneEffect c e left dacc r s = rxdoneEffect c e left dacc rnd s := by
  have hretime : s.retime c .rxActive r = s.retime c .rxActive rnd :=
    State.retime_draw c rnd r s _ fun us hmem => h us (settleVerdict_out_subset c _ dacc _ hmem)
  simp only [rxdoneEffect, hretime]

theorem hdrCheck_draw (h : ArmsNoFlush (hdrCheck c rnd s).out) : hdrCheck c r s = hdrCheck c rnd s := by
  simp only [hdrCheck] at h ⊢
  split_ifs at h ⊢
  · rfl
  · rfl
  · exact State.rxTimeout_draw c rnd r _ h

theorem frameTimeout_draw (h : ArmsNoFlush (frameTimeout c rnd s).out) : frameTimeout c r s = frameTimeout c rnd s := by
  simp only [frameTimeout] at h ⊢
  split_ifs at h ⊢
  · rfl
  · exact State.rxTimeout_draw c rnd r _ h

theorem startTransmit_draw (stx : Bool) (h : ArmsNoFlush (startTransmit c stx rnd s).out) :
    startTransmit c stx r s = startTransmit c stx rnd s := by
  cases stx with
  | true => rfl
  | false => exact State.txDone_draw c rnd r _ h

theorem flush_draw (pull stx : Bool) (fsize handle : Byte)
    (h : ArmsNoFlush (flush c pull stx fsize handle rnd s).out) :
    flush c pull stx fsize handle r s = flush c pull stx fsize handle rnd s := by
  simp only [flush] at h ⊢
  split_ifs at h ⊢
  · rfl
  · exact startTransmit_draw c rnd r _ stx h
  · exact startTransmit_draw c rnd r _ stx h
  · exact State.txDone_draw c rnd r _ h

theorem fireEffect_draw (kind : TimerKind) (pull stx : Bool) (fsize handle : Byte)
    (h : ArmsNoFlush (fireEffect c kind pull stx fsize handle rnd s).out) :
    fireEffect c kind pull stx fsize handle r s = fireEffect c kind pull stx fsize handle rnd s := by
  cases kind with
  | none => rfl
  | hdrCheck => exact hdrCheck_draw c rnd r _ h
  | frameTimeout => exact frameTimeout_draw c rnd r _ h
  | flush => exact flush_draw c rnd r _ pull stx fsize handle h
  | tick => exact State.retime_draw c rnd r _ _ h

/-- An effect that arms no flush is the effect of any draw (R82). -/
theorem effectOf_withRnd (i : Instr) (h : ArmsNoFlush (effectOf c i s).out) :
    effectOf c (withRnd r i) s = effectOf c i s := by
  cases i with
  | init rnd => exact State.retime_draw c rnd r _ _ h
  | pktReady rnd => exact pktReadyEffect_draw c rnd r s h
  | fall w rnd => exact fallEffect_draw c rnd r s w h
  | rxdone e left dacc rnd => exact rxdoneEffect_draw c rnd r s e left dacc h
  | txdone rnd => exact State.txDone_draw c rnd r _ h
  | fire pull stx fsize handle rnd => exact fireEffect_draw c rnd r s s.timer.kind pull stx fsize handle h
  | rxb | rd => rfl

end draw

/-- Settles O44: no check reads the draw, and an effect that arms no flush does not either (`effectOf_withRnd`). -/
theorem drawMattersOnlyToAFlush : Obligations.DrawMattersOnlyToAFlush := by
  intro c i s t r h hflush
  rw [← h]
  refine eventOf_congr (firstCause_withRnd c r s i) fun hnone => effectOf_withRnd c r s.beginEvent i ?_
  obtain ⟨-, ⟨cause, hcause, -⟩ | ⟨-, rfl⟩⟩ := eventOf_next h
  · simp [hnone] at hcause
  · exact hflush

end Sys2Proof.Machine
end

section
/-! PROOFS. The line monitor (spec/40_line_monitor.md): the falling edge, the byte stores, the two continuations that
supervise a reception, and the bound on a reception. -/

namespace Sys2Proof.Machine

/-! ### The two answers of an event -/

/-- A live block that finds a cause stops with it (R238). -/
theorem eventOf_stops {c : Config} {i : Instr} {s : State} {cause : StopCause} (hlive : Live s)
    (hcause : firstCause c i s = some cause) : eventOf c i s = .next (s.stopped cause (stopCommands cause)) := by
  rw [eventOf_live c i hlive, hcause, Option.elim_some]

/-- A live block that finds no cause performs the event (R238). -/
theorem eventOf_performs {c : Config} {i : Instr} {s : State} (hlive : Live s) (hnone : firstCause c i s = none) :
    eventOf c i s = .next (effectOf c i s.beginEvent) := by
  rw [eventOf_live c i hlive, hnone, Option.elim_none]

theorem exec_stops {i : Instr} {s : State} {cause : StopCause} (hlive : Live s)
    (hcause : firstCause defaultConfig i s = some cause) :
    exec i s = .next (s.stopped cause (stopCommands cause)) :=
  (exec_eq_eventOf i s).trans (eventOf_stops hlive hcause)

theorem exec_performs {i : Instr} {s : State} (hlive : Live s) (hnone : firstCause defaultConfig i s = none) :
    exec i s = .next (effectOf defaultConfig i s.beginEvent) :=
  (exec_eq_eventOf i s).trans (eventOf_performs hlive hnone)

/-! ### The effects as records -/

section records
variable (c : Config) (rnd : Byte) (s : State)

/-- The abandon path: the reception is given up, counted, and the bus arbitrated again (R104). -/
theorem State.rxTimeout_eq :
    s.rxTimeout c rnd = { s with
      status := { s.status with rxActive := false }
      diag := { s.diag with timeoutError := inc c s.diag.timeoutError }
      timer := armedAfter c { s.status with rxActive := false } rnd
      out := s.out ++ [Command.disableRx.word, (armedAfter c { s.status with rxActive := false } rnd).armWord] } := by
  rw [State.rxTimeout, State.retime_armedAfter _ _ _ _ (by simp)]
  simp [State.countTimeout, State.emit]

/-- The frame timeout does nothing without a reception (R114). -/
theorem frameTimeout_not_receiving (hrx : s.status.rxActive = false) : frameTimeout c rnd s = s := by
  simp [frameTimeout, hrx]

/-- A reception the frame timeout finds is abandoned (R114). -/
theorem frameTimeout_receiving (hrx : s.status.rxActive = true) : frameTimeout c rnd s = s.rxTimeout c rnd := by
  simp [frameTimeout, hrx]

/-- An edge with the line back high: the receiver is armed, supervised by the header check (R102, R103, R105). -/
theorem fallEffect_high :
    fallEffect c true rnd s = { s with
      status := { s.status with rxActive := true }
      rxbuf := Memory.zeroed
      timer := { kind := .hdrCheck, delayUs := BitVec.ofNat 24 c.hdrCheckUs }
      out := s.out ++ [(Command.startRx (BitVec.ofNat 16 c.frameMax)).word,
        (Command.waitHigh (BitVec.ofNat 16 c.waitHighUs)).word,
        (Command.armTimer .hdrCheck (BitVec.ofNat 24 c.hdrCheckUs)).word] } := by
  simp [fallEffect, State.arm, State.emit, State.setRxActive]

/-- An edge with the line still low: the receiver is armed, and the reception abandoned at once (R104). -/
theorem fallEffect_low (hrx : s.status.rxActive = false) :
    fallEffect c false rnd s = { s with
      rxbuf := Memory.zeroed
      diag := { s.diag with timeoutError := inc c s.diag.timeoutError }
      timer := armedAfter c s.status rnd
      out := s.out ++ [(Command.startRx (BitVec.ofNat 16 c.frameMax)).word,
        (Command.waitHigh (BitVec.ofNat 16 c.waitHighUs)).word,
        Command.disableRx.word, (armedAfter c s.status rnd).armWord] } := by
  have hcleared : { s.status with rxActive := false } = s.status := by rw [← hrx]
  simp [fallEffect, State.rxTimeout_eq, State.emit, State.setRxActive, hcleared]

end records

/-! ### The falling edge and the byte stores -/

/-- Settles O21: the two checks in their order, then the effect of each value of `W` (`fallEffect_high`,
`fallEffect_low`). -/
theorem fallStartsAReception : Obligations.FallStartsAReception := by
  intro w rnd s ⟨hlive, hrun⟩
  refine ⟨fun hrx => ?overlap, fun hrx htx => ?duringTx, ?high, ?low⟩
  case overlap => exact exec_stops hlive (by simp [firstCause, hrun, hrx])
  case duringTx => exact exec_stops hlive (by simp [firstCause, hrun, hrx, htx])
  case high =>
    rintro hrx htx rfl
    refine ⟨_, exec_performs hlive (by simp [firstCause, hrun, hrx, htx]), ?_⟩
    rw [effectOf, fallEffect_high]
    exact ⟨Memory.read_zeroed, Memory.wf_zeroed _, rfl⟩
  case low =>
    rintro hrx htx rfl
    refine ⟨_, exec_performs hlive (by simp [firstCause, hrun, hrx, htx]), ?_⟩
    rw [effectOf, fallEffect_low _ _ s.beginEvent hrx]
    exact ⟨Memory.read_zeroed, Memory.wf_zeroed _, rfl⟩

/-- A read after a write: the byte written at its own address, every other byte as before. -/
theorem Memory.read_write {size : Nat} {m : Memory} (hm : m.wf size = true) (a b : Nat) (v : Byte) :
    (m.write a v).read b = if b = a then v else m.read b := by
  split
  case isTrue h => rw [h, Memory.read_write_same size m a v hm]
  case isFalse h => exact Memory.read_write_of_ne m a b v h

/-- Settles O22: the two refusals in their order, then one write of the buffer (`Memory.read_write`). -/
theorem rxbStoresOneByte : Obligations.RxbStoresOneByte := by
  intro off data s ⟨hlive, hrun⟩ hbuf
  refine ⟨fun hrx => ?unarmed, fun hrx hoff => ?outside, fun hrx hoff => ?stored⟩
  case unarmed => exact exec_stops hlive (by simp [firstCause, hrun, hrx])
  case outside => exact exec_stops hlive (by simp [firstCause, hrun, hrx, hoff])
  case stored =>
    exact ⟨_, exec_performs hlive (by simp [firstCause, hrun, hrx, hoff]), rfl,
      fun a => Memory.read_write hbuf off.toNat a data⟩

/-! ### The fire of a supervised reception -/

section fire
variable {c : Config} {s : State} (pull stx : Bool) (fsize handle rnd : Byte)

/-- The fire of a supervising timer meets none of its checks (R200, R205), so its continuation runs. -/
theorem eventOf_fire_supervised (hs : Running s) (hk : s.timer.kind = .hdrCheck ∨ s.timer.kind = .frameTimeout) :
    eventOf c (.fire pull stx fsize handle rnd) s =
      .next (fireEffect c s.timer.kind pull stx fsize handle rnd s.beginEvent) := by
  obtain ⟨hlive, hrun⟩ := hs
  have hnone : firstCause c (.fire pull stx fsize handle rnd) s = none := by
    rcases hk with hk | hk <;> simp [firstCause, hrun, hk]
  exact eventOf_performs hlive hnone

/-- The fire of the header check empties the slot and runs the check (R200, R202). -/
theorem eventOf_fire_hdrCheck (hs : Running s) (hk : s.timer.kind = .hdrCheck) :
    eventOf c (.fire pull stx fsize handle rnd) s = .next (hdrCheck c rnd s.beginEvent.emptyTimer) := by
  rw [eventOf_fire_supervised pull stx fsize handle rnd hs (.inl hk), hk, fireEffect]

/-- The fire of the frame timeout empties the slot and runs the timeout (R200, R202). -/
theorem eventOf_fire_frameTimeout (hs : Running s) (hk : s.timer.kind = .frameTimeout) :
    eventOf c (.fire pull stx fsize handle rnd) s = .next (frameTimeout c rnd s.beginEvent.emptyTimer) := by
  rw [eventOf_fire_supervised pull stx fsize handle rnd hs (.inr hk), hk, fireEffect]

end fire

/-- Settles O25: the fire runs the header check on an empty slot (`eventOf_fire_hdrCheck`), which has three paths; its
two operands are the probed bytes (`headerPresent_iff`) and the delay of the frame timeout. -/
theorem headerCheckFire : Obligations.HeaderCheckFire := by
  rintro pull stx fsize handle rnd s after us hs hk rfl rfl
  rw [exec_eq_eventOf, eventOf_fire_hdrCheck pull stx fsize handle rnd hs hk]
  refine ⟨fun hrx => ?unarmed, fun hrx hbyte => ?present, fun hrx hzero => ?absent⟩
  case unarmed => rw [hdrCheck_not_receiving _ _ s.beginEvent.emptyTimer hrx]; rfl
  case present => rw [hdrCheck_present _ _ s.beginEvent.emptyTimer hrx ((headerPresent_iff _ _).mpr hbyte)]; rfl
  case absent =>
    have hnone : headerPresent defaultConfig s.rxbuf = false := by
      rw [← Bool.not_eq_true, headerPresent_iff]
      rintro ⟨a, ha, hne⟩
      exact hne (hzero a ha)
    rw [hdrCheck_absent _ _ s.beginEvent.emptyTimer hrx hnone, State.rxTimeout_eq]
    rfl

/-- Settles O26: the fire runs the frame timeout on an empty slot (`eventOf_fire_frameTimeout`), and with a reception
that is the abandon path (`State.rxTimeout_eq`). -/
theorem frameTimeoutFire : Obligations.FrameTimeoutFire := by
  rintro pull stx fsize handle rnd s after hs hk rfl
  rw [exec_eq_eventOf, eventOf_fire_frameTimeout pull stx fsize handle rnd hs hk]
  refine ⟨fun hrx => ?unarmed, fun hrx => ?abandoned⟩
  case unarmed => rw [frameTimeout_not_receiving _ _ s.beginEvent.emptyTimer hrx]; rfl
  case abandoned => rw [frameTimeout_receiving _ _ s.beginEvent.emptyTimer hrx, State.rxTimeout_eq]; rfl

/-! ### The bound on a reception -/

/-- The frame timeout leaves no reception (R114). -/
theorem frameTimeout_ends (c : Config) (rnd : Byte) (s : State) : (frameTimeout c rnd s).status.rxActive = false := by
  rcases frameTimeout_cases c rnd s with ⟨hrx, h⟩ | ⟨-, h⟩
  · rw [h, hrx]
  · simp [h]

/-- The header check leaves no reception, or one supervised by the frame timeout (R112). -/
theorem hdrCheck_ends_or_supervises (c : Config) (rnd : Byte) (s : State) :
    (hdrCheck c rnd s).status.rxActive = false ∨ (hdrCheck c rnd s).timer.kind = .frameTimeout := by
  rcases hdrCheck_cases c rnd s with ⟨hrx, h⟩ | ⟨-, -, h⟩ | ⟨-, -, h⟩
  · exact .inl (by rw [h, hrx])
  · exact .inr (by simp [h])
  · exact .inl (by simp [h])

/-- A fire of the frame timeout is taken without a stop and ends the reception. -/
theorem eventOf_fire_frameTimeout_ends (c : Config) {s : State} (pull stx : Bool) (fsize handle rnd : Byte)
    (hs : Running s) (hk : s.timer.kind = .frameTimeout) :
    ∃ t, eventOf c (.fire pull stx fsize handle rnd) s = .next t ∧ t.halted = false ∧ t.status.rxActive = false :=
  ⟨_, eventOf_fire_frameTimeout pull stx fsize handle rnd hs hk, by simpa using hs.1, frameTimeout_ends ..⟩

/-- A reception is active only in a running block (R41 item 2). -/
theorem Inv.running_of_rxActive {c : Config} {s : State} (h : Inv c s) (hrx : s.status.rxActive = true) :
    s.running = true := by
  by_contra hrun
  obtain ⟨hclear, -⟩ := h.beforeInit (by simpa using hrun)
  simp [Status.allClear, hrx] at hclear

/-- Settles O51: a reception is supervised by the header check or the frame timeout (R41 item 3). The frame timeout ends
it (`eventOf_fire_frameTimeout_ends`); the header check ends it or leaves the frame timeout armed
(`hdrCheck_ends_or_supervises`), whose fire is then the second. -/
theorem twoFiresEndAReception : Obligations.TwoFiresEndAReception := by
  intro c s p x p' x' f h r f' h' r' hinv hlive hrx
  have hs : Running s := ⟨hlive, hinv.running_of_rxActive hrx⟩
  rcases hinv.receiving hrx with hk | hk
  · refine ⟨_, eventOf_fire_hdrCheck p x f h r hs hk, by simpa using hlive, ?_⟩
    refine (hdrCheck_ends_or_supervises ..).imp_right fun hk' => ⟨hk', ?_⟩
    exact eventOf_fire_frameTimeout_ends c p' x' f' h' r' ⟨by simpa using hlive, by simpa using hs.2⟩ hk'
  · obtain ⟨t, ht, hhalted, hend⟩ := eventOf_fire_frameTimeout_ends c p x f h r hs hk
    exact ⟨t, ht, hhalted, .inl hend⟩

end Sys2Proof.Machine
end

section
/-! PROOFS. The frame receiver (spec/41_frame_receiver.md): what a verdict does, which frames are forwarded, and that
nothing but `RXDONE` dispatches. -/

namespace Sys2Proof

@[simp] theorem Command.word_inj {a b : Command} : a.word = b.word ↔ a = b :=
  ⟨commandWordsNameOneCommand a b, congrArg _⟩

namespace Machine

/-! ### What a verdict does -/

/-- The counters after a verdict (R132 to R139). -/
def Verdict.settledDiag (c : Config) (dacc : Bool) (d : Diag) : Verdict → Diag
  | .silent => d
  | .frameError => { d with uartError := inc c d.uartError }
  | .nextGenDrop => { d with packetsDropped := inc c d.packetsDropped }
  | .forward _ =>
    if dacc then { d with packetsReceived := inc c d.packetsReceived }
    else { d with packetsReceived := inc c d.packetsReceived, packetsDropped := inc c d.packetsDropped }

/-- The commands of a verdict: only a forwarded frame has one (R138). -/
def Verdict.commands : Verdict → List Command
  | .forward decl => [.dispatch (BitVec.ofNat 16 decl)]
  | .silent | .frameError | .nextGenDrop => []

/-- A verdict writes the counters and the output, and nothing else (R132 to R139). -/
theorem settleVerdict_eq (c : Config) (dacc : Bool) (v : Verdict) (s : State) :
    settleVerdict c dacc v s =
      { s with diag := v.settledDiag c dacc s.diag, out := s.out ++ v.commands.map Command.word } := by
  cases v with
  | forward decl => cases dacc <;> rfl
  | silent | frameError | nextGenDrop =>
    simp [settleVerdict, Verdict.settledDiag, Verdict.commands, State.countUartError, State.countDropped]

/-- A completed reception: the bus is released and arbitrated first (R131), then the verdict on the buffer settled. -/
theorem rxdoneEffect_eq (c : Config) (e : Bool) (left : Byte) (dacc : Bool) (rnd : Byte) (s : State) :
    rxdoneEffect c e left dacc rnd s = { s with
      status := { s.status with rxActive := false }
      timer := armedAfter c { s.status with rxActive := false } rnd
      diag := (verdict c e left s.rxbuf).settledDiag c dacc s.diag
      out := s.out ++ (armedAfter c { s.status with rxActive := false } rnd).armWord ::
        (verdict c e left s.rxbuf).commands.map Command.word } := by
  simp only [rxdoneEffect]
  rw [settleVerdict_eq, State.retime_armedAfter _ _ _ _ (by simp)]
  simp

/-! ### The validation chain -/

/-- The embedded code as a number: low byte first (R58). -/
theorem toNat_embeddedCode (m : Memory) : (embeddedCode m).toNat = (m.read 0).toNat + 256 * (m.read 1).toNat := by
  rw [embeddedCode, BitVec.toNat_append, ← Nat.shiftLeft_add_eq_or_of_lt (m.read 0).isLt, Nat.shiftLeft_eq]
  omega

theorem computedCode_eq_embeddedCode_iff (c : Config) (m : Memory) :
    computedCode c m = embeddedCode m ↔
      (c.crc16 (frameBytes m 2 (declaredSize c m))).toNat = (m.read 0).toNat + 256 * (m.read 1).toNat := by
  rw [← BitVec.toNat_inj, toNat_embeddedCode, computedCode]

/-- Settles O23: the two refusals in their order, then the record of `rxdoneEffect_eq`, with the verdict's chain and the
statement's followed together, link by link. -/
theorem rxdoneValidatesTheFrame : Obligations.RxdoneValidatesTheFrame := by
  intro e left dacc rnd s ⟨hlive, hrun⟩
  refine ⟨fun hrx => ?spurious, fun hrx hleft => ?outside, ?validated⟩
  case spurious => exact exec_stops hlive (by simp [firstCause, hrun, hrx])
  case outside => exact exec_stops hlive (by simp [firstCause, hrun, hrx, hleft])
  case validated =>
    rintro hrx hleft m decl after arm d rfl rfl rfl rfl rfl
    refine ⟨_, exec_performs hlive (by simp [firstCause, hrun, hrx, hleft]), ?_⟩
    rw [effectOf, rxdoneEffect_eq]
    refine ⟨rfl, ?_⟩
    simp only [verdict, computedCode_eq_embeddedCode_iff, sizeByte, declaredSize, receivedCount, frameBytes,
      serviceSize, nextGeneration, bne_iff_ne, ne_eq, gt_iff_lt, State.beginEvent_rxbuf]
    split_ifs with hsize herror hshort hcode hbounds hgen hdacc
    · rfl -- size 0 (R132)
    · rfl -- hardware error (R133)
    · rfl -- fewer bytes than declared (R134)
    · rfl -- a bound exceeded (R136)
    · rw [Verdict.settledDiag, if_pos hdacc]; rfl -- forwarded and accepted (R138)
    · rw [Verdict.settledDiag, if_neg hdacc]; rfl -- forwarded and rejected (R139)
    · rfl -- next generation (R137)
    · rfl -- code mismatch (R135)

/-! ### The forwarding law -/

/-- The seven checks of the forwarding law (R140). -/
structure PassesChecks (c : Config) (e : Bool) (left : Byte) (m : Memory) : Prop where
  size_ne_zero : sizeByte m ≠ 0
  noError : e = false
  received : declaredSize c m ≤ receivedCount c left
  codesMatch : computedCode c m = embeddedCode m
  fits : declaredSize c m ≤ c.frameMax
  serviceFits : (serviceSize c m).toNat ≤ c.svcMax
  currentGen : nextGeneration c m = false

/-- The checks in the bytes of the buffer (R52 to R58, R134). -/
theorem passesChecks_iff (c : Config) (e : Bool) (left : Byte) (m : Memory) :
    PassesChecks c e left m ↔
      m.read 2 ≠ 0 ∧ e = false ∧ (m.read 2).toNat + c.hdrBytes ≤ c.frameMax - left.toNat ∧
      (c.crc16 (frameBytes m 2 ((m.read 2).toNat + c.hdrBytes))).toNat = (m.read 0).toNat + 256 * (m.read 1).toNat ∧
      (m.read 2).toNat + c.hdrBytes ≤ c.frameMax ∧ (m.read c.svcSizeOff).toNat ≤ c.svcMax ∧
      m.read 3 &&& c.nextgenMask = 0 := by
  have hcodes := computedCode_eq_embeddedCode_iff c m
  have hgeneration : nextGeneration c m = false ↔ m.read 3 &&& c.nextgenMask = 0 := bne_eq_false_iff_eq
  constructor
  · rintro ⟨hsize, herror, hreceived, hcode, hfits, hservice, hgen⟩
    exact ⟨hsize, herror, hreceived, hcodes.mp hcode, hfits, hservice, hgeneration.mp hgen⟩
  · rintro ⟨hsize, herror, hreceived, hcode, hfits, hservice, hgen⟩
    exact ⟨hsize, herror, hreceived, hcodes.mpr hcode, hfits, hservice, hgeneration.mpr hgen⟩

/-- The chain forwards exactly the frames that pass every check, with their declared size (R138, R140). -/
theorem verdict_eq_forward_iff {c : Config} {e : Bool} {left : Byte} {m : Memory} {decl : Nat} :
    verdict c e left m = .forward decl ↔ PassesChecks c e left m ∧ decl = declaredSize c m := by
  constructor
  · intro h
    simp only [verdict] at h
    split_ifs at h with hsize herror hreceived hcode hbounds hgen
    obtain ⟨hfits, hservice⟩ := not_or.mp hbounds
    exact ⟨⟨hsize, by simpa using herror, Nat.le_of_not_lt hreceived, not_not.mp hcode, Nat.le_of_not_lt hfits,
      Nat.le_of_not_lt hservice, by simpa using hgen⟩, (Verdict.forward.inj h).symm⟩
  · rintro ⟨⟨hsize, herror, hreceived, hcode, hfits, hservice, hgen⟩, rfl⟩
    have hbounds : ¬ (declaredSize c m > c.frameMax ∨ (serviceSize c m).toNat > c.svcMax) :=
      not_or.mpr ⟨Nat.not_lt.mpr hfits, Nat.not_lt.mpr hservice⟩
    rw [verdict, if_neg hsize, if_neg (by simp [herror]), if_neg (Nat.not_lt.mpr hreceived),
      if_neg (not_not.mpr hcode), if_neg hbounds, if_neg (by simp [hgen])]

/-- A verdict dispatches exactly the declared size of a frame it forwards (R138). -/
theorem dispatch_mem_commands {v : Verdict} {len : Half} :
    Command.dispatch len ∈ v.commands ↔ ∃ decl, v = .forward decl ∧ len = BitVec.ofNat 16 decl := by
  cases v <;> simp [Verdict.commands]

/-- A completed reception dispatches the declared size of a frame that passes every check, and nothing else (R138). -/
theorem dispatch_mem_rxdoneEffect {c : Config} {e : Bool} {left : Byte} {dacc : Bool} {rnd : Byte} {s : State}
    {len : Half} (hout : s.out = []) :
    (Command.dispatch len).word ∈ (rxdoneEffect c e left dacc rnd s).out ↔
      PassesChecks c e left s.rxbuf ∧ len = BitVec.ofNat 16 (declaredSize c s.rxbuf) := by
  have hmem : (Command.dispatch len).word ∈ (rxdoneEffect c e left dacc rnd s).out ↔
      Command.dispatch len ∈ (verdict c e left s.rxbuf).commands := by
    simp [rxdoneEffect_eq, hout, Timer.armWord]
  rw [hmem, dispatch_mem_commands]
  simp only [verdict_eq_forward_iff, and_assoc, exists_and_left, exists_eq_left]

/-- Settles O46: a completion that does not stop has its effect, which dispatches exactly if every check passes
(`dispatch_mem_rxdoneEffect`). -/
theorem forwardingLaw : Obligations.ForwardingLaw := by
  intro c e left dacc rnd s t h hlive
  obtain ⟨-, ⟨cause, -, rfl⟩ | ⟨-, rfl⟩⟩ := eventOf_next h
  · simp at hlive
  · rw [← passesChecks_iff]
    exact ⟨fun ⟨len, hmem⟩ => ((dispatch_mem_rxdoneEffect s.beginEvent_out).mp hmem).1,
      fun hpass => ⟨_, (dispatch_mem_rxdoneEffect s.beginEvent_out).mpr ⟨hpass, rfl⟩⟩⟩

/-! ### Who dispatches -/

section dispatch
variable (c : Config) (rnd : Byte) (s : State) (len : Half)

@[simp] theorem dispatch_mem_retime (mask : ClearMask) :
    (Command.dispatch len).word ∈ (s.retime c mask rnd).out ↔ (Command.dispatch len).word ∈ s.out := by
  rcases s.retime_cases c mask rnd with ⟨-, h⟩ | ⟨-, -, h⟩ | ⟨-, -, h⟩ <;> simp [h]

@[simp] theorem dispatch_mem_rxTimeout :
    (Command.dispatch len).word ∈ (s.rxTimeout c rnd).out ↔ (Command.dispatch len).word ∈ s.out := by
  simp [State.rxTimeout]

@[simp] theorem dispatch_mem_txDone :
    (Command.dispatch len).word ∈ (s.txDone c rnd).out ↔ (Command.dispatch len).word ∈ s.out := by
  simp [State.txDone]

@[simp] theorem dispatch_mem_hdrCheck :
    (Command.dispatch len).word ∈ (hdrCheck c rnd s).out ↔ (Command.dispatch len).word ∈ s.out := by
  rcases hdrCheck_cases c rnd s with ⟨-, h⟩ | ⟨-, -, h⟩ | ⟨-, -, h⟩ <;> simp [h]

@[simp] theorem dispatch_mem_frameTimeout :
    (Command.dispatch len).word ∈ (frameTimeout c rnd s).out ↔ (Command.dispatch len).word ∈ s.out := by
  rcases frameTimeout_cases c rnd s with ⟨-, h⟩ | ⟨-, h⟩ <;> simp [h]

@[simp] theorem dispatch_mem_startTransmit (stx : Bool) :
    (Command.dispatch len).word ∈ (startTransmit c stx rnd s).out ↔ (Command.dispatch len).word ∈ s.out := by
  cases stx <;> simp [startTransmit]

@[simp] theorem dispatch_mem_flush (pull stx : Bool) (fsize handle : Byte) :
    (Command.dispatch len).word ∈ (flush c pull stx fsize handle rnd s).out ↔
      (Command.dispatch len).word ∈ s.out := by
  simp only [flush]
  split_ifs <;> simp

@[simp] theorem dispatch_mem_pktReadyEffect :
    (Command.dispatch len).word ∈ (pktReadyEffect c rnd s).out ↔ (Command.dispatch len).word ∈ s.out := by
  simp only [pktReadyEffect]
  split <;> simp

@[simp] theorem dispatch_mem_fallEffect (w : Bool) :
    (Command.dispatch len).word ∈ (fallEffect c w rnd s).out ↔ (Command.dispatch len).word ∈ s.out := by
  cases w <;> simp [fallEffect]

@[simp] theorem dispatch_mem_fireEffect (kind : TimerKind) (pull stx : Bool) (fsize handle : Byte) :
    (Command.dispatch len).word ∈ (fireEffect c kind pull stx fsize handle rnd s).out ↔
      (Command.dispatch len).word ∈ s.out := by
  cases kind <;> simp [fireEffect]

end dispatch

/-- An effect that dispatches is a completed reception's, of a frame that passes every check (R138). -/
theorem effectOf_dispatches {c : Config} {i : Instr} {s : State} {len : Half} (hout : s.out = [])
    (hmem : (Command.dispatch len).word ∈ (effectOf c i s).out) :
    ∃ e left dacc rnd, i = .rxdone e left dacc rnd ∧ PassesChecks c e left s.rxbuf ∧
      len = BitVec.ofNat 16 (declaredSize c s.rxbuf) := by
  cases i with
  | rxdone e left dacc rnd => exact ⟨e, left, dacc, rnd, rfl, (dispatch_mem_rxdoneEffect hout).mp hmem⟩
  | init rnd => simp [effectOf, initEffect, hout] at hmem
  | txdone rnd => simp [effectOf, txdoneEffect, hout] at hmem
  | pktReady | fall | rxb | fire | rd => simp [effectOf, hout] at hmem

/-- No stop dispatches: its only command is an `ABORT` (R231). -/
theorem dispatch_not_mem_stopCommands (cause : StopCause) (len : Half) :
    (Command.dispatch len).word ∉ (stopCommands cause).map Command.word := by
  unfold stopCommands
  split <;> simp

/-- A size byte that is not 0 declares at least one byte of payload (R54, R132). -/
theorem PassesChecks.lt_declaredSize {c : Config} {e : Bool} {left : Byte} {m : Memory}
    (h : PassesChecks c e left m) : c.hdrBytes < declaredSize c m :=
  Nat.lt_add_of_pos_left (Nat.pos_of_ne_zero fun hzero => h.size_ne_zero (BitVec.eq_of_toNat_eq hzero))

/-- A declared size fits the length field of `DISPATCH` (R9, R86). -/
theorem toNat_ofNat_declaredSize (c : Config) (m : Memory) :
    (BitVec.ofNat 16 (declaredSize c m)).toNat = declaredSize c m := by
  rw [BitVec.toNat_ofNat]
  exact Nat.mod_eq_of_lt (Nat.lt_of_le_of_lt (declaredSize_le c m) (hdrBytes_lt_half c))

/-- Settles O47: only a completed reception dispatches, a frame that passes every check (`effectOf_dispatches`); two of
the checks are the bounds, and the buffer stays as it was. -/
theorem dispatchLengthIsTheDeclaredSize : Obligations.DispatchLengthIsTheDeclaredSize := by
  intro c i s t len h hmem
  obtain ⟨-, ⟨cause, -, rfl⟩ | ⟨-, rfl⟩⟩ := eventOf_next h
  · exact absurd hmem (dispatch_not_mem_stopCommands cause len)
  · obtain ⟨e, left, dacc, rnd, rfl, hpass, rfl⟩ := effectOf_dispatches s.beginEvent_out hmem
    have hkept : (effectOf c (.rxdone e left dacc rnd) s.beginEvent).rxbuf = s.rxbuf := by simp [effectOf]
    rw [hkept, toNat_ofNat_declaredSize]
    exact ⟨rfl, hpass.lt_declaredSize, hpass.fits⟩

end Machine

end Sys2Proof
end

section
/-! PROOFS. The transmit scheduler (spec/42_transmit_scheduler.md): the backoff, packet ready, the completion of a
transmission, and the flush. -/

namespace Sys2Proof.Machine

/-! ### The backoff -/

/-- Settles O32: half the jitter mask and the correction stay below the target (R9), so no difference is cut off; the
default mask keeps the low 7 bits of the draw. -/
theorem backoffDelay : Obligations.BackoffDelay := by
  refine ⟨fun c rnd => ?formula, fun rnd => ?defaults⟩
  case formula =>
    have hlow := c.constraints.backoff_pos
    rw [backoff, Nat.shiftRight_one]
    omega
  case defaults =>
    have hjitter : rnd.toNat &&& 0x7F = rnd.toNat % 128 := Nat.and_two_pow_sub_one_eq_mod rnd.toNat 7
    have hdelay : backoff defaultConfig rnd = 150 - 0x7F / 2 + (rnd.toNat &&& 0x7F) - 40 := rfl
    omega

/-! ### Packet ready -/

section pktReady
variable (c : Config) (rnd : Byte) {s : State}

/-- A signal on an entirely idle block marks the packet and arms the flush (R165). -/
theorem pktReadyEffect_idle (h : s.status.allClear = true) :
    pktReadyEffect c rnd s = { s with
      status := { rxActive := false, txActive := false, txQueued := true }
      timer := { kind := .flush, delayUs := BitVec.ofNat 24 (backoff c rnd) }
      out := s.out ++ [(Command.armTimer .flush (BitVec.ofNat 24 (backoff c rnd))).word] } := by
  obtain ⟨hrx, htx, -⟩ := s.status.allClear_iff.mp h
  simp [pktReadyEffect, h, State.retime_armedAfter, armedAfter, Timer.armWord, State.setTxQueued, hrx, htx]

/-- A signal on any other block only marks the packet (R165). -/
theorem pktReadyEffect_busy (h : s.status.allClear = false) :
    pktReadyEffect c rnd s = { s with status := { s.status with txQueued := true } } := by
  simp [pktReadyEffect, h, State.setTxQueued]

end pktReady

/-- Settles O19: a running block performs `PKT_READY`, whose effect has the two forms of `pktReadyEffect_idle` and
`pktReadyEffect_busy`. -/
theorem pktReadyMarksAndArbitrates : Obligations.PktReadyMarksAndArbitrates := by
  intro rnd s ⟨hlive, hrun⟩
  rw [exec_performs hlive (by simp [firstCause, hrun]), effectOf]
  refine ⟨fun hidle => ?idle, fun hbusy => ?busy⟩
  case idle => rw [pktReadyEffect_idle _ _ (s := s.beginEvent) hidle]; rfl
  case busy => rw [pktReadyEffect_busy _ _ (s := s.beginEvent) hbusy]; rfl

/-- A signal with the pending flag set changes nothing (R166). -/
theorem exec_pktReady_queued (rnd : Byte) {s : State} (hs : Running s) (hq : s.status.txQueued = true) :
    exec (.pktReady rnd) s = .next { s with out := [], rdata := none } := by
  have hbusy : s.status.allClear = false := by simp [Status.allClear, hq]
  have hkept : { s.status with txQueued := true } = s.status := by rw [← hq]
  rw [(pktReadyMarksAndArbitrates rnd s hs).2 hbusy, hkept]

/-- So does any run of them, up to the output port. -/
theorem execAll_pktReady_queued (more : List Byte) : ∀ {s : State}, Running s → s.status.txQueued = true →
    ∃ u, execAll (more.map Instr.pktReady) s = .next u ∧
      { u with out := [], rdata := none } = { s with out := [], rdata := none } := by
  induction more with
  | nil => exact fun _ _ => ⟨_, rfl, rfl⟩
  | cons rnd more ih =>
    intro s hs hq
    obtain ⟨u, hu, hports⟩ := ih (s := { s with out := [], rdata := none }) hs hq
    refine ⟨u, ?_, hports⟩
    rw [List.map_cons, execAll, exec_pktReady_queued rnd hs hq]
    exact hu

/-- Settles O20: the first signal leaves the pending flag set, so every further one finds it set
(`execAll_pktReady_queued`). -/
theorem pktReadyIsIdempotent : Obligations.PktReadyIsIdempotent := by
  refine ⟨fun rnd s hs hq => exec_pktReady_queued rnd hs hq, fun rnd more s t ⟨hlive, hrun⟩ h => ?_⟩
  rw [exec_performs hlive (by simp [firstCause, hrun])] at h
  obtain rfl : effectOf defaultConfig (.pktReady rnd) s.beginEvent = t := by simpa using h
  exact execAll_pktReady_queued more ⟨by simpa using hlive, by simpa [effectOf] using hrun⟩ (by simp [effectOf])

/-! ### The completion of a transmission -/

section txdone
variable (c : Config) (rnd : Byte) {s : State}

/-- A completion on a bus that does not receive returns the frame and arbitrates the bus again (R176). -/
theorem txdoneEffect_idle (hrx : s.status.rxActive = false) :
    txdoneEffect c rnd s = { s with
      status := { s.status with txActive := false }
      txf := { valid := false, handle := 0, size := 0 }
      timer := armedAfter c { s.status with txActive := false } rnd
      out := s.out ++
        [(Command.frameSent s.txf.handle).word, (armedAfter c { s.status with txActive := false } rnd).armWord] } := by
  rw [txdoneEffect, State.txDone, State.retime_armedAfter _ _ _ _ (by simpa using hrx)]
  simp [State.emit]

/-- A completion during a reception returns the frame and leaves the bus to the reception (R162, R176). -/
theorem txdoneEffect_receiving (hrx : s.status.rxActive = true) :
    txdoneEffect c rnd s = { s with
      status := { s.status with txActive := false }
      txf := { valid := false, handle := 0, size := 0 }
      out := s.out ++ [(Command.frameSent s.txf.handle).word] } := by
  rw [txdoneEffect, State.txDone, State.retime_receiving _ _ _ _ (by simpa using hrx)]
  simp [State.emit, State.clearFlags]

end txdone

/-- Settles O24: the refusal, then the effect with and without a reception (`txdoneEffect_receiving`,
`txdoneEffect_idle`). -/
theorem txdoneReturnsTheFrame : Obligations.TxdoneReturnsTheFrame := by
  rintro rnd s after ⟨hlive, hrun⟩ rfl
  refine ⟨fun htx => ?spurious, fun htx hrx => ?idle, fun htx hrx => ?receiving⟩
  case spurious => exact exec_stops hlive (by simp [firstCause, hrun, htx])
  case idle =>
    rw [exec_performs hlive (by simp [firstCause, hrun, htx]), effectOf, txdoneEffect_idle _ _ (s := s.beginEvent) hrx]
    rfl
  case receiving =>
    rw [exec_performs hlive (by simp [firstCause, hrun, htx]), effectOf,
      txdoneEffect_receiving _ _ (s := s.beginEvent) hrx]
    rfl

/-! ### The flush -/

/-- The frame a flush sends: the one claimed, or else the one the owner gives it (R170, R172). -/
def State.frameToSend (s : State) (fsize handle : Byte) : TxFrame :=
  if s.txf.valid then s.txf else { valid := true, handle := handle, size := fsize }

/-- What a flush that has a frame to send asks of the owner: nothing if the frame is already claimed (R170). -/
def State.pullCommands (s : State) : List Command := if s.txf.valid then [] else [.pullFrame]

/-- The state in which a flush on an idle bus starts its frame: the bus and the frame claimed, the pending flag cleared
(R170, R172). -/
def State.claimFrame (s : State) (fsize handle : Byte) : State :=
  { s with
    status := { rxActive := false, txActive := true, txQueued := false }
    txf := s.frameToSend fsize handle
    out := s.out ++ s.pullCommands.map Command.word }

theorem State.frameToSend_valid (s : State) (fsize handle : Byte) : (s.frameToSend fsize handle).valid = true := by
  unfold State.frameToSend
  split
  case isTrue h => exact h
  case isFalse => rfl

theorem State.map_pullCommands (s : State) :
    s.pullCommands.map Command.word = if s.txf.valid then [] else [Command.pullFrame.word] :=
  apply_ite (List.map Command.word) _ _ _

section flush
variable (c : Config) (pull stx : Bool) (fsize handle rnd : Byte) {s : State}

/-- A flush on an idle bus that has a frame, claimed or pulled, claims the bus and starts it (R170, R172). -/
theorem flush_of_frame (hrx : s.status.rxActive = false) (htx : s.status.txActive = false)
    (hframe : s.txf.valid = true ∨ pull = true) :
    flush c pull stx fsize handle rnd s = startTransmit c stx rnd (s.claimFrame fsize handle) := by
  have hidle : ¬ (s.status.rxActive || s.status.txActive) = true := by simp [hrx, htx]
  rw [flush, if_neg hidle]
  cases hv : s.txf.valid with
  | true =>
    simp [hv, State.claimFrame, State.frameToSend, State.pullCommands, State.setTxActive, State.setTxQueued, hrx]
  | false =>
    have hpull : pull = true := by simpa [hv] using hframe
    simp [hv, hpull, State.claimFrame, State.frameToSend, State.pullCommands, State.setTxActive, State.setTxQueued,
      State.emit, hrx]

/-- A flush on an idle bus that finds no frame clears the pending flag and arms the tick (R170, R175). -/
theorem flush_of_no_frame (hrx : s.status.rxActive = false) (htx : s.status.txActive = false)
    (hvalid : s.txf.valid = false) :
    flush c false stx fsize handle rnd s = { s with
      status := { rxActive := false, txActive := false, txQueued := false }
      timer := { kind := .tick, delayUs := BitVec.ofNat 24 c.tickUs }
      out := s.out ++ [Command.pullFrame.word, (Command.armTimer .tick (BitVec.ofNat 24 c.tickUs)).word] } := by
  simp [flush, State.txDone, State.retime_armedAfter, armedAfter, Timer.armWord, State.setTxActive, State.setTxQueued,
    State.emit, hrx, htx, hvalid]

/-- Everything the flush can do (R170 to R172). -/
theorem flush_cases (s : State) :
    (s.status.rxActive || s.status.txActive) = true ∧ flush c pull stx fsize handle rnd s = s ∨
    s.status.rxActive = false ∧ s.status.txActive = false ∧ (s.txf.valid = true ∨ pull = true) ∧
      flush c pull stx fsize handle rnd s = startTransmit c stx rnd (s.claimFrame fsize handle) ∨
    s.status.rxActive = false ∧ s.status.txActive = false ∧ s.txf.valid = false ∧ pull = false ∧
      flush c pull stx fsize handle rnd s = { s with
        status := { rxActive := false, txActive := false, txQueued := false }
        timer := { kind := .tick, delayUs := BitVec.ofNat 24 c.tickUs }
        out := s.out ++ [Command.pullFrame.word, (Command.armTimer .tick (BitVec.ofNat 24 c.tickUs)).word] } := by
  cases hbusy : s.status.rxActive || s.status.txActive
  case true => exact .inl ⟨rfl, flush_busy c rnd s pull stx fsize handle hbusy⟩
  case false =>
    obtain ⟨hrx, htx⟩ := Bool.or_eq_false_iff.mp hbusy
    cases hframe : s.txf.valid || pull
    case true =>
      have hframe := Bool.or_eq_true_iff.mp hframe
      exact .inr (.inl ⟨hrx, htx, hframe, flush_of_frame c pull stx fsize handle rnd hrx htx hframe⟩)
    case false =>
      obtain ⟨hvalid, rfl⟩ := Bool.or_eq_false_iff.mp hframe
      exact .inr (.inr ⟨hrx, htx, hvalid, rfl, flush_of_no_frame c stx fsize handle rnd hrx htx hvalid⟩)

/-- A lost start race: the error counted, the frame pending again, the bus released and the flush armed (R173). -/
theorem startTransmit_lost (hrx : s.status.rxActive = false) :
    startTransmit c false rnd s = { s with
      status := { rxActive := false, txActive := false, txQueued := true }
      timer := { kind := .flush, delayUs := BitVec.ofNat 24 (backoff c rnd) }
      diag := { s.diag with loError := inc c s.diag.loError }
      out := s.out ++ [(Command.startTx s.txf.handle (BitVec.ofNat 16 (transmitLength c s.txf))).word,
        (Command.armTimer .flush (BitVec.ofNat 24 (backoff c rnd))).word] } := by
  simp [startTransmit, State.txDone, State.retime_armedAfter, armedAfter, Timer.armWord, State.countLoError,
    State.setTxQueued, State.emit, hrx]

/-- The fire of the flush empties the slot and runs the flush (R200, R202). -/
theorem eventOf_fire_flush (hs : Running s) (hk : s.timer.kind = .flush) :
    eventOf c (.fire pull stx fsize handle rnd) s =
      .next (flush c pull stx fsize handle rnd s.beginEvent.emptyTimer) := by
  rw [eventOf_performs hs.1 (by simp [firstCause, hs.2, hk]), effectOf, State.beginEvent_timer, hk, fireEffect]

end flush

/-- Settles O27: the fire runs the flush on an empty slot (`eventOf_fire_flush`). It defers (`flush_busy`), finds no frame
(`flush_of_no_frame`), or starts one (`flush_of_frame`), which is accepted or lost (`startTransmit_lost`). -/
theorem flushFire : Obligations.FlushFire := by
  rintro pull stx fsize handle rnd s f start retry idle hs hk rfl rfl rfl rfl
  rw [exec_eq_eventOf, eventOf_fire_flush defaultConfig pull stx fsize handle rnd hs hk]
  refine ⟨fun hbusy => ?busy, fun hrx htx hvalid hpull => ?noFrame, fun hrx htx hframe hstx => ?started,
    fun hrx htx hframe hstx => ?lost⟩
  case busy => rw [flush_busy _ _ s.beginEvent.emptyTimer _ _ _ _ (Bool.or_eq_true_iff.mpr hbusy)]; rfl
  case noFrame => rw [hpull, flush_of_no_frame _ _ _ _ _ (s := s.beginEvent.emptyTimer) hrx htx hvalid]; rfl
  case started =>
    rw [flush_of_frame _ _ _ _ _ _ (s := s.beginEvent.emptyTimer) hrx htx hframe, hstx]
    rw [startTransmit, State.claimFrame, State.map_pullCommands]
    rfl
  case lost =>
    rw [flush_of_frame _ _ _ _ _ _ (s := s.beginEvent.emptyTimer) hrx htx hframe, hstx, startTransmit_lost _ _ rfl,
      State.claimFrame, State.map_pullCommands]
    rfl

end Sys2Proof.Machine
end

section
/-! PROOFS. The commands of every event as one list (spec/30_encoding.md R85, R86), and what follows for the commands of the
transmit scheduler (spec/42_transmit_scheduler.md R163, R177, R178, R180). -/

namespace Sys2Proof

/-- The code of a command: its row in the table of R86. -/
@[simp] def Command.code : Command → BitVec 4
  | .startRx _ => 0x1
  | .flushRx => 0x2
  | .disableRx => 0x3
  | .waitHigh _ => 0x4
  | .startTx _ _ => 0x5
  | .armTimer _ _ => 0x6
  | .pullFrame => 0x7
  | .frameSent _ => 0x8
  | .dispatch _ => 0x9
  | .abort _ => 0xA

/-- The code is the top field of the command's word (R85). -/
theorem commandCode_word (cmd : Command) : commandCode cmd.word = cmd.code := by
  cases cmd with
  | startRx | flushRx | disableRx | waitHigh | startTx | armTimer | pullFrame | frameSent | dispatch | abort =>
    simp (disch := omega) [Command.word, commandCode, field_or, field_place, field_place_of_disjoint]

/-- The commands about a transmit frame: its pull, its start and its return (R86). -/
def Command.aboutFrame : Command → Bool
  | .pullFrame | .startTx _ _ | .frameSent _ => true
  | .startRx _ | .flushRx | .disableRx | .waitHigh _ | .armTimer _ _ | .dispatch _ | .abort _ => false

namespace Machine

/-! ### The commands of each operation -/

/-- The `ARM_TIMER` command of a timer slot. -/
abbrev Timer.request (t : Timer) : Command := .armTimer t.kind t.delayUs

/-- The commands of a retime that leaves the flags `f`: none if it waits for a reception (R162). -/
def retimeCommands (c : Config) (f : Status) (rnd : Byte) : List Command :=
  if f.rxActive then [] else [(armedAfter c f rnd).request]

/-- The commands of an abandoned reception (R104). -/
def rxTimeoutCommands (c : Config) (f : Status) (rnd : Byte) : List Command :=
  [.disableRx, (armedAfter c { f with rxActive := false } rnd).request]

/-- The commands of the header check (R112). -/
def hdrCheckCommands (c : Config) (rnd : Byte) (s : State) : List Command :=
  if !s.status.rxActive then []
  else if headerPresent c s.rxbuf then
    [.flushRx, .armTimer .frameTimeout (BitVec.ofNat 24 (frameTimeoutUs c s.rxbuf))]
  else .flushRx :: rxTimeoutCommands c s.status rnd

/-- The commands of the start of the frame `x`, accepted or lost (R172, R173). -/
def startCommands (c : Config) (stx : Bool) (rnd : Byte) (x : TxFrame) : List Command :=
  .startTx x.handle (BitVec.ofNat 16 (transmitLength c x)) ::
    if stx then [] else [.armTimer .flush (BitVec.ofNat 24 (backoff c rnd))]

/-- The commands of the flush (R170 to R173). -/
def flushCommands (c : Config) (pull stx : Bool) (fsize handle rnd : Byte) (s : State) : List Command :=
  if s.status.rxActive || s.status.txActive then []
  else if s.txf.valid || pull then
    s.pullCommands ++ startCommands c stx rnd (s.frameToSend fsize handle)
  else [.pullFrame, .armTimer .tick (BitVec.ofNat 24 c.tickUs)]

/-- The commands of a fire that is performed (R200). -/
def fireCommands (c : Config) (pull stx : Bool) (fsize handle rnd : Byte) (s : State) : List Command :=
  match s.timer.kind with
  | .none => []
  | .hdrCheck => hdrCheckCommands c rnd s
  | .frameTimeout => if !s.status.rxActive then [] else rxTimeoutCommands c s.status rnd
  | .flush => flushCommands c pull stx fsize handle rnd s
  | .tick => retimeCommands c s.status rnd

/-- The commands of an event that is performed, in their order. -/
def commandsOf (c : Config) (i : Instr) (s : State) : List Command :=
  match i with
  | .init rnd => retimeCommands c s.status rnd
  | .pktReady rnd => if s.status.allClear then [.armTimer .flush (BitVec.ofNat 24 (backoff c rnd))] else []
  | .fall w rnd =>
    [.startRx (BitVec.ofNat 16 c.frameMax), .waitHigh (BitVec.ofNat 16 c.waitHighUs)] ++
      if w then [.armTimer .hdrCheck (BitVec.ofNat 24 c.hdrCheckUs)] else rxTimeoutCommands c s.status rnd
  | .rxb _ _ => []
  | .rxdone e left _ rnd =>
    (armedAfter c { s.status with rxActive := false } rnd).request :: (verdict c e left s.rxbuf).commands
  | .txdone rnd => .frameSent s.txf.handle :: retimeCommands c { s.status with txActive := false } rnd
  | .fire pull stx fsize handle rnd => fireCommands c pull stx fsize handle rnd s
  | .rd _ => []

section output
variable (c : Config) (rnd : Byte) (s : State)

theorem State.retime_out (mask : ClearMask) :
    (s.retime c mask rnd).out = s.out ++ (retimeCommands c (s.status.clear mask) rnd).map Command.word := by
  unfold retimeCommands
  split
  case isTrue hrx => simp [s.retime_receiving c mask rnd hrx]
  case isFalse hrx => simp [s.retime_armedAfter c mask rnd (by simpa using hrx), Timer.armWord]

theorem hdrCheck_out : (hdrCheck c rnd s).out = s.out ++ (hdrCheckCommands c rnd s).map Command.word := by
  rcases hdrCheck_cases c rnd s with ⟨hrx, h⟩ | ⟨hrx, hp, h⟩ | ⟨hrx, hp, h⟩
  · simp [h, hdrCheckCommands, hrx]
  · simp [h, hdrCheckCommands, hrx, hp]
  · simp [h, hdrCheckCommands, hrx, hp, State.rxTimeout_eq, rxTimeoutCommands, Timer.armWord]

theorem startTransmit_out (stx : Bool) (hrx : s.status.rxActive = false) :
    (startTransmit c stx rnd s).out = s.out ++ (startCommands c stx rnd s.txf).map Command.word := by
  cases stx with
  | true => simp [startTransmit, startCommands]
  | false => simp [startTransmit_lost c rnd hrx, startCommands]

theorem flush_out (pull stx : Bool) (fsize handle : Byte) :
    (flush c pull stx fsize handle rnd s).out =
      s.out ++ (flushCommands c pull stx fsize handle rnd s).map Command.word := by
  unfold flushCommands
  rcases flush_cases c pull stx fsize handle rnd s with
    ⟨hbusy, h⟩ | ⟨hrx, htx, hframe, h⟩ | ⟨hrx, htx, hvalid, rfl, h⟩
  · rw [h, if_pos hbusy, List.map_nil, List.append_nil]
  · rw [h, startTransmit_out c rnd _ stx rfl, if_neg (by simp [hrx, htx]), if_pos (by simpa using hframe),
      List.map_append, ← List.append_assoc]
    rfl
  · simp [h, hrx, htx, hvalid]

theorem fireEffect_out (pull stx : Bool) (fsize handle : Byte) :
    (fireEffect c s.timer.kind pull stx fsize handle rnd s).out =
      s.out ++ (fireCommands c pull stx fsize handle rnd s).map Command.word := by
  unfold fireCommands
  cases hk : s.timer.kind with
  | none => simp [fireEffect]
  | hdrCheck => exact hdrCheck_out c rnd s.emptyTimer
  | frameTimeout =>
    rcases frameTimeout_cases c rnd s.emptyTimer with ⟨hrx, h⟩ | ⟨hrx, h⟩ <;> rw [State.emptyTimer_status] at hrx
    · simp [fireEffect, h, hrx]
    · simp [fireEffect, h, hrx, State.rxTimeout_eq, rxTimeoutCommands, Timer.armWord]
  | flush => exact flush_out c rnd s.emptyTimer pull stx fsize handle
  | tick => simp [fireEffect, State.retime_out]

/-- What an effect appends to the output is the event's list of commands (R85). -/
theorem effectOf_out (i : Instr) : (effectOf c i s).out = s.out ++ (commandsOf c i s).map Command.word := by
  cases i with
  | init rnd => simp [effectOf, initEffect, commandsOf, State.retime_out]
  | pktReady rnd =>
    cases h : s.status.allClear
    · simp [effectOf, pktReadyEffect_busy c rnd h, commandsOf, h]
    · simp [effectOf, pktReadyEffect_idle c rnd h, commandsOf, h]
  | fall w rnd =>
    cases w with
    | true => simp [effectOf, fallEffect_high, commandsOf]
    | false => simp [effectOf, fallEffect, State.rxTimeout_eq, commandsOf, rxTimeoutCommands, Timer.armWord]
  | rxb off data => simp [effectOf, commandsOf]
  | rxdone e left dacc rnd => simp [effectOf, rxdoneEffect_eq, commandsOf, Timer.armWord]
  | txdone rnd => simp [effectOf, txdoneEffect, State.txDone, State.retime_out, commandsOf]
  | fire pull stx fsize handle rnd => exact fireEffect_out c rnd s pull stx fsize handle
  | rd addr => simp [effectOf, commandsOf]

end output

theorem commandsOf_beginEvent (c : Config) (i : Instr) (s : State) : commandsOf c i s.beginEvent = commandsOf c i s := by
  cases i <;> rfl

/-- The whole output of an event: the commands of its stop, or those of its effect (R85, R231). -/
theorem eventOf_out {c : Config} {i : Instr} {s t : State} (h : eventOf c i s = .next t) :
    t.out = ((firstCause c i s).elim (commandsOf c i s) stopCommands).map Command.word := by
  obtain ⟨-, ⟨cause, hcause, rfl⟩ | ⟨hnone, rfl⟩⟩ := eventOf_next h
  · rw [hcause, Option.elim_some, State.stopped_out]
  · rw [hnone, Option.elim_none, effectOf_out, commandsOf_beginEvent, State.beginEvent_out, List.nil_append]

/-- A stop emits nothing but an `ABORT` (R231). -/
theorem mem_stopCommands {cmd : Command} {cause : StopCause} (h : cmd ∈ stopCommands cause) : cmd = .abort cause := by
  unfold stopCommands at h
  split at h
  · exact List.mem_singleton.mp h
  · exact absurd h List.not_mem_nil

/-- An event that emits a command stopped with `ABORT`, or performed its effect and the command is one of its list. -/
theorem eventOf_emits {c : Config} {i : Instr} {s t : State} {cmd : Command} (h : eventOf c i s = .next t)
    (hmem : cmd.word ∈ t.out) :
    (∃ cause, cmd = .abort cause) ∨ cmd ∈ commandsOf c i s ∧ t = effectOf c i s.beginEvent := by
  obtain ⟨-, ⟨cause, -, rfl⟩ | ⟨-, rfl⟩⟩ := eventOf_next h
  · exact .inl ⟨cause, mem_stopCommands (by simpa using hmem)⟩
  · exact .inr ⟨by simpa [effectOf_out, commandsOf_beginEvent] using hmem, rfl⟩

/-! ### No command twice -/

/-- How many commands of a code an event emitted, counted in its list. -/
theorem State.commandCount_of_out {s : State} {cmds : List Command} (h : s.out = cmds.map Command.word) (k : BitVec 4) :
    s.commandCount k = (cmds.map Command.code).count k := by
  simp [State.commandCount, h, List.count, List.countP_map, Function.comp_def, commandCode_word]

section nodup
variable (c : Config)

theorem retimeCommands_codes (f : Status) (rnd : Byte) :
    (retimeCommands c f rnd).map Command.code = if f.rxActive then [] else [0x6] := by
  rw [retimeCommands, apply_ite (List.map Command.code)]
  rfl

theorem Verdict.commands_codes (v : Verdict) :
    v.commands.map Command.code = [] ∨ v.commands.map Command.code = [0x9] := by
  cases v <;> simp [Verdict.commands]

theorem flushCommands_codes_nodup (pull stx : Bool) (fsize handle rnd : Byte) (s : State) :
    ((flushCommands c pull stx fsize handle rnd s).map Command.code).Nodup := by
  simp only [flushCommands, State.pullCommands, startCommands]
  split_ifs <;> simp

theorem hdrCheckCommands_codes_nodup (rnd : Byte) (s : State) :
    ((hdrCheckCommands c rnd s).map Command.code).Nodup := by
  simp only [hdrCheckCommands, rxTimeoutCommands]
  split_ifs <;> simp

theorem fireCommands_codes_nodup (pull stx : Bool) (fsize handle rnd : Byte) (s : State) :
    ((fireCommands c pull stx fsize handle rnd s).map Command.code).Nodup := by
  simp only [fireCommands]
  cases s.timer.kind with
  | none => exact List.nodup_nil
  | hdrCheck => exact hdrCheckCommands_codes_nodup c rnd s
  | frameTimeout => simp only [rxTimeoutCommands]; split <;> simp
  | flush => exact flushCommands_codes_nodup c pull stx fsize handle rnd s
  | tick => rw [retimeCommands_codes]; split <;> simp

/-- No event that is performed emits two commands of one code: each of its paths arms at most once (R163, R177). -/
theorem commandsOf_codes_nodup (i : Instr) (s : State) : ((commandsOf c i s).map Command.code).Nodup := by
  cases i with
  | init rnd => rw [commandsOf, retimeCommands_codes]; split <;> simp
  | pktReady rnd => simp only [commandsOf]; split <;> simp
  | fall w rnd => cases w <;> simp [commandsOf, rxTimeoutCommands]
  | rxb | rd => exact List.nodup_nil
  | rxdone e left dacc rnd =>
    rcases (verdict c e left s.rxbuf).commands_codes with h | h <;> simp [commandsOf, h]
  | txdone rnd => rw [commandsOf, List.map_cons, retimeCommands_codes]; split <;> simp
  | fire pull stx fsize handle rnd => exact fireCommands_codes_nodup c pull stx fsize handle rnd s

end nodup

theorem stopCommands_codes_nodup (cause : StopCause) : ((stopCommands cause).map Command.code).Nodup := by
  unfold stopCommands
  split <;> simp

/-- No event's output names one command twice. -/
theorem eventOf_commandCount_le_one {c : Config} {i : Instr} {s t : State} (h : eventOf c i s = .next t)
    (k : BitVec 4) : t.commandCount k ≤ 1 := by
  rw [State.commandCount_of_out (eventOf_out h)]
  refine List.nodup_iff_count_le_one.mp ?_ k
  cases firstCause c i s with
  | none => exact commandsOf_codes_nodup c i s
  | some cause => exact stopCommands_codes_nodup cause

/-- Settles O37: no command, whichever it is, is emitted twice (`eventOf_commandCount_le_one`). -/
theorem atMostOneArmAndOneStart : Obligations.AtMostOneArmAndOneStart :=
  fun _ _ _ _ h => ⟨eventOf_commandCount_le_one h 0x6, eventOf_commandCount_le_one h 0x5⟩

/-! ### Who starts a transmission, and who returns a frame -/

section frames
variable (c : Config) (rnd : Byte) (s : State)

theorem retimeCommands_aboutFrame (f : Status) : (retimeCommands c f rnd).any Command.aboutFrame = false := by
  unfold retimeCommands
  split <;> rfl

theorem hdrCheckCommands_aboutFrame : (hdrCheckCommands c rnd s).any Command.aboutFrame = false := by
  simp only [hdrCheckCommands]
  split_ifs <;> rfl

theorem Verdict.commands_aboutFrame (v : Verdict) : v.commands.any Command.aboutFrame = false := by
  cases v <;> rfl

/-- No continuation but the flush emits a command about a frame. -/
theorem fireCommands_aboutFrame (pull stx : Bool) (fsize handle : Byte) (hk : s.timer.kind ≠ .flush) :
    (fireCommands c pull stx fsize handle rnd s).any Command.aboutFrame = false := by
  simp only [fireCommands]
  cases hkind : s.timer.kind with
  | flush => exact absurd hkind hk
  | none => rfl
  | hdrCheck => exact hdrCheckCommands_aboutFrame c rnd s
  | frameTimeout => simp only; split <;> rfl
  | tick => exact retimeCommands_aboutFrame c rnd s.status

/-- A command about a frame comes from a completed transmission, which returns the frame held (R176), or from a fire of the
flush (R170). -/
theorem aboutFrame_mem_commandsOf {i : Instr} {cmd : Command} (hcmd : cmd.aboutFrame = true)
    (hmem : cmd ∈ commandsOf c i s) :
    (∃ rnd, i = .txdone rnd) ∧ cmd = .frameSent s.txf.handle ∨
    ∃ pull stx fsize handle rnd, i = .fire pull stx fsize handle rnd ∧ s.timer.kind = .flush ∧
      cmd ∈ flushCommands c pull stx fsize handle rnd s := by
  have hnone : ∀ {cmds : List Command}, cmds.any Command.aboutFrame = false → cmd ∉ cmds :=
    fun h hmem => List.any_eq_false.mp h cmd hmem hcmd
  cases i with
  | txdone rnd =>
    have hsent := (List.mem_cons.mp hmem).resolve_right (hnone (retimeCommands_aboutFrame c rnd _))
    exact .inl ⟨⟨rnd, rfl⟩, hsent⟩
  | fire pull stx fsize handle rnd =>
    by_cases hk : s.timer.kind = .flush
    · simp only [commandsOf, fireCommands, hk] at hmem
      exact .inr ⟨pull, stx, fsize, handle, rnd, rfl, hk, hmem⟩
    · exact absurd hmem (hnone (fireCommands_aboutFrame c rnd s pull stx fsize handle hk))
  | init rnd => exact absurd hmem (hnone (retimeCommands_aboutFrame c rnd s.status))
  | pktReady rnd => exact absurd hmem (hnone (by simp only [commandsOf]; split <;> rfl))
  | fall w rnd => exact absurd hmem (hnone (by cases w <;> rfl))
  | rxdone e left dacc rnd => exact absurd hmem (hnone (Verdict.commands_aboutFrame (verdict c e left s.rxbuf)))
  | rxb | rd => exact absurd hmem (hnone rfl)

/-- A flush that emits a `START_TX` found an idle bus and a frame, and names that frame (R172). -/
theorem startTx_mem_flushCommands {pull stx : Bool} {fsize handle h : Byte} {n : Half}
    (hmem : .startTx h n ∈ flushCommands c pull stx fsize handle rnd s) :
    s.status.rxActive = false ∧ s.status.txActive = false ∧ (s.txf.valid = true ∨ pull = true) ∧
      h = (s.frameToSend fsize handle).handle ∧
      n = BitVec.ofNat 16 (transmitLength c (s.frameToSend fsize handle)) := by
  simp only [flushCommands] at hmem
  split_ifs at hmem with hbusy hframe
  · simp at hmem
  · obtain ⟨hrx, htx⟩ : s.status.rxActive = false ∧ s.status.txActive = false := by simpa using hbusy
    have hpull : .startTx h n ∉ s.pullCommands := by unfold State.pullCommands; split <;> simp
    have hstart : .startTx h n ∈ startCommands c stx rnd (s.frameToSend fsize handle) :=
      (List.mem_append.mp hmem).resolve_left hpull
    have hnamed : Command.startTx h n = .startTx _ _ :=
      (List.mem_cons.mp hstart).resolve_right (by split <;> simp)
    exact ⟨hrx, htx, by simpa using hframe, Command.startTx.inj hnamed⟩
  · simp at hmem

/-- The flush returns no frame: it is the transmission's completion that does (R176, R178). -/
theorem frameSent_not_mem_flushCommands (pull stx : Bool) (fsize handle h : Byte) :
    .frameSent h ∉ flushCommands c pull stx fsize handle rnd s := by
  simp only [flushCommands, State.pullCommands, startCommands]
  split_ifs <;> simp

/-- A flush that pulls emits `PULL_FRAME` (R172). -/
theorem pullFrame_mem_flushCommands (pull stx : Bool) (fsize handle : Byte) (hrx : s.status.rxActive = false)
    (htx : s.status.txActive = false) (hvalid : s.txf.valid = false) :
    .pullFrame ∈ flushCommands c pull stx fsize handle rnd s := by
  cases pull <;> simp [flushCommands, State.pullCommands, hrx, htx, hvalid]

/-- A flush that has a frame to send holds it afterwards, started or not (R172, R173). -/
theorem flush_txf_of_frame (pull stx : Bool) (fsize handle : Byte) (hrx : s.status.rxActive = false)
    (htx : s.status.txActive = false) (hframe : s.txf.valid = true ∨ pull = true) :
    (flush c pull stx fsize handle rnd s).txf = s.frameToSend fsize handle := by
  rw [flush_of_frame c pull stx fsize handle rnd hrx htx hframe, (startTransmit_frame ..).1]
  rfl

/-- What the flush does to the claimed frame: it keeps it, or, holding none, claims the one it pulls (R170, R178). -/
theorem flush_txf_cases (pull stx : Bool) (fsize handle : Byte) :
    (flush c pull stx fsize handle rnd s).txf = s.txf ∨
    pull = true ∧ s.status.rxActive = false ∧ s.status.txActive = false ∧ s.txf.valid = false ∧
      (flush c pull stx fsize handle rnd s).txf = { valid := true, handle := handle, size := fsize } := by
  rcases flush_cases c pull stx fsize handle rnd s with ⟨-, h⟩ | ⟨hrx, htx, hframe, -⟩ | ⟨-, -, -, -, h⟩
  · exact .inl (by rw [h])
  · rw [flush_txf_of_frame c rnd s pull stx fsize handle hrx htx hframe, State.frameToSend]
    cases hvalid : s.txf.valid with
    | true => exact .inl rfl
    | false => exact .inr ⟨hframe.resolve_left (by simp [hvalid]), hrx, htx, rfl, rfl⟩
  · exact .inl (by rw [h])

/-- A performed event keeps the claimed frame, but for a completed transmission, which discards it, and a flush, which can
claim one (R23, R178). -/
theorem effectOf_txf (i : Instr) :
    (effectOf c i s).txf = s.txf ∨
    (∃ rnd, i = .txdone rnd) ∧ (effectOf c i s).txf = { valid := false, handle := 0, size := 0 } ∨
    ∃ stx fsize handle rnd, i = .fire true stx fsize handle rnd ∧ s.timer.kind = .flush ∧
      s.status.rxActive = false ∧ s.status.txActive = false ∧ s.txf.valid = false ∧
      (effectOf c i s).txf = { valid := true, handle := handle, size := fsize } := by
  cases i with
  | txdone rnd => exact .inr (.inl ⟨⟨rnd, rfl⟩, by simp [effectOf]⟩)
  | fire pull stx fsize handle rnd =>
    cases hk : s.timer.kind with
    | flush =>
      rcases flush_txf_cases c rnd s.emptyTimer pull stx fsize handle with h | ⟨rfl, hrx, htx, hvalid, h⟩
      · exact .inl (by rw [effectOf, hk]; exact h)
      · exact .inr (.inr ⟨stx, fsize, handle, rnd, rfl, rfl, hrx, htx, hvalid, by rw [effectOf, hk]; exact h⟩)
    | none | hdrCheck | frameTimeout | tick => exact .inl (by simp [effectOf, fireEffect, hk])
  | init | pktReady | fall | rxb | rxdone | rd => exact .inl (by simp [effectOf])

end frames

/-- A transmit length fits the length field of `START_TX` (R9, R86). -/
theorem toNat_ofNat_transmitLength (c : Config) (x : TxFrame) :
    (BitVec.ofNat 16 (transmitLength c x)).toNat = x.size.toNat + c.hdrBytes := by
  rw [BitVec.toNat_ofNat]
  exact Nat.mod_eq_of_lt (Nat.lt_of_le_of_lt (transmitLength_le c x) (hdrBytes_lt_half c))

/-- Settles O38: a `START_TX` comes from a flush (`aboutFrame_mem_commandsOf`) that found an idle bus and a frame, and names
that frame (`startTx_mem_flushCommands`), which the block holds afterwards (`flush_txf_of_frame`). -/
theorem transmissionsStartOnAnIdleBus : Obligations.TransmissionsStartOnAnIdleBus := by
  intro c i s t handle n h hmem
  obtain ⟨cause, habort⟩ | ⟨hcmd, rfl⟩ := eventOf_emits h hmem
  · cases habort
  obtain ⟨-, hsent⟩ | ⟨pull, stx, fsize, hd, rnd, rfl, hk, hflush⟩ := aboutFrame_mem_commandsOf c s rfl hcmd
  · cases hsent
  obtain ⟨hrx, htx, hframe, rfl, rfl⟩ := startTx_mem_flushCommands c rnd s hflush
  have htxf : (effectOf c (.fire pull stx fsize hd rnd) s.beginEvent).txf = s.frameToSend fsize hd := by
    rw [effectOf, State.beginEvent_timer, hk, fireEffect]
    exact flush_txf_of_frame c rnd s.beginEvent.emptyTimer pull stx fsize hd hrx htx hframe
  rw [htxf, toNat_ofNat_transmitLength]
  exact ⟨⟨pull, stx, fsize, hd, rnd, rfl⟩, hk, hrx, htx, s.frameToSend_valid fsize hd, rfl, rfl⟩

/-- A `FRAME_SENT` is that of a completed transmission: it names the frame the block held, and the block then holds none
(R176). -/
theorem frameSent_of_eventOf {c : Config} {i : Instr} {s t : State} {handle : Byte} (h : eventOf c i s = .next t)
    (hmem : (Command.frameSent handle).word ∈ t.out) :
    (∃ rnd, i = .txdone rnd) ∧ handle = s.txf.handle ∧ t.txf = { valid := false, handle := 0, size := 0 } := by
  obtain ⟨cause, habort⟩ | ⟨hcmd, rfl⟩ := eventOf_emits h hmem
  · cases habort
  obtain ⟨⟨rnd, rfl⟩, hsent⟩ | ⟨pull, stx, fsize, hd, rnd, rfl, -, hflush⟩ := aboutFrame_mem_commandsOf c s rfl hcmd
  · exact ⟨⟨rnd, rfl⟩, Command.frameSent.inj hsent, by simp [effectOf]⟩
  · exact absurd hflush (frameSent_not_mem_flushCommands c rnd s pull stx fsize hd handle)

/-- Settles O40: the claimed frame changes by a completed transmission or a successful pull alone (`effectOf_txf`), each of
which emits its command, and the first alone returns a frame (`frameSent_of_eventOf`). -/
theorem claimedFramesAreReturnedOnlyByTxdone : Obligations.ClaimedFramesAreReturnedOnlyByTxdone := by
  intro c i s t h
  refine ⟨fun hchanged => ?_, fun handle hmem => frameSent_of_eventOf h hmem⟩
  obtain ⟨-, ⟨cause, -, rfl⟩ | ⟨-, rfl⟩⟩ := eventOf_next h
  · exact absurd rfl hchanged
  have hout : ∀ cmd ∈ commandsOf c i s, cmd.word ∈ (effectOf c i s.beginEvent).out := by
    intro cmd hcmd
    rw [effectOf_out, commandsOf_beginEvent]
    exact List.mem_append_right _ (List.mem_map_of_mem hcmd)
  obtain hkept | ⟨⟨rnd, rfl⟩, htxf⟩ | ⟨stx, fsize, handle, rnd, rfl, hk, hrx, htx, hvalid, htxf⟩ :=
    effectOf_txf c s.beginEvent i
  · exact absurd hkept hchanged
  · exact .inl ⟨⟨rnd, rfl⟩, htxf, hout _ List.mem_cons_self⟩
  · refine .inr ⟨stx, fsize, handle, rnd, rfl, hk, hvalid, htxf, hout _ ?_⟩
    rw [State.beginEvent_timer] at hk
    simp only [commandsOf, fireCommands, hk]
    exact pullFrame_mem_flushCommands c rnd s true stx fsize handle hrx htx hvalid

end Machine

end Sys2Proof
end

section
/-! PROOFS. The timer coordinator and control (spec/43_tick_control_diag.md): the start of the block, the timer slot, and a
register read after another. -/

namespace Sys2Proof.Machine

/-! ### The start of the block and the register read -/

/-- The first `INIT` on a bus that does not receive starts the block and arms what a retime arms there (R162, R210). -/
theorem initEffect_not_receiving (c : Config) (rnd : Byte) {s : State} (hrx : s.status.rxActive = false) :
    initEffect c rnd s = { s with
      running := true
      timer := armedAfter c s.status rnd
      out := s.out ++ [(armedAfter c s.status rnd).armWord] } := by
  rw [initEffect, State.retime_armedAfter _ _ _ _ (by simpa using hrx), Status.clear_nothing_mask]

/-- The first `INIT` during a reception starts the block and arms nothing (R162). -/
theorem initEffect_receiving (c : Config) (rnd : Byte) {s : State} (hrx : s.status.rxActive = true) :
    initEffect c rnd s = { s with running := true } := by
  rw [initEffect, State.retime_receiving _ _ _ _ (by simpa using hrx), State.clearFlags, Status.clear_nothing_mask]

/-- With no flag set a retime arms the idle tick (R160, R210). -/
theorem armedAfter_allClear (c : Config) (rnd : Byte) {f : Status} (h : f.allClear = true) :
    armedAfter c f rnd = { kind := .tick, delayUs := BitVec.ofNat 24 c.tickUs } := by
  obtain ⟨-, -, hqueued⟩ := f.allClear_iff.mp h
  simp [armedAfter, hqueued]

/-- Settles O18: the refusal of the second `INIT`, then the effect of the first with and without a reception
(`initEffect_receiving`, `initEffect_not_receiving`); at `STATUS = 0` it arms the tick (`armedAfter_allClear`). -/
theorem initStartsTheIdleTick : Obligations.InitStartsTheIdleTick := by
  intro rnd s hlive
  refine ⟨fun hrun => ?again, fun hrun hclear => ?idle, fun hrun hrx => ?receiving, fun hrun hrx => ?notReceiving⟩
  case again => exact exec_stops hlive (by simp [firstCause, hrun])
  all_goals rw [exec_performs hlive (by simp [firstCause, hrun]), effectOf]
  case idle =>
    obtain ⟨hrx, -⟩ := s.status.allClear_iff.mp hclear
    rw [initEffect_not_receiving _ _ (s := s.beginEvent) hrx, State.beginEvent_status, armedAfter_allClear _ _ hclear]
    rfl
  case receiving => rw [initEffect_receiving _ _ (s := s.beginEvent) hrx]; rfl
  case notReceiving => rw [initEffect_not_receiving _ _ (s := s.beginEvent) hrx]; rfl

/-- Settles O31: a read writes the output ports alone (`rdEvent_live`), and neither the map nor the next event reads
them. -/
theorem readsShowOneState : Obligations.ReadsShowOneState := by
  intro c a b s t h
  obtain ⟨hlive, rfl⟩ := rdEvent_next h
  calc rdEvent c b { s.beginEvent with rdata := some (regmap c a s.beginEvent) }
      = .next { s with out := [], rdata := some (regmap c b s) } := rdEvent_live c b hlive
    _ = rdEvent c b s := (rdEvent_live c b hlive).symm

/-! ### The timer slot and the requests -/

/-- The timer slot a command asks for: that of `ARM_TIMER` (R86, R201). -/
@[simp] def requestedSlot : Command → Option Timer
  | .armTimer kind d => some { kind := kind, delayUs := d }
  | .startRx _ | .flushRx | .disableRx | .waitHigh _ | .startTx _ _ | .pullFrame | .frameSent _ | .dispatch _
  | .abort _ => none

/-- The timer slots a list of commands asks for, in order. -/
def armings (cmds : List Command) : List Timer := cmds.filterMap requestedSlot

theorem mem_armings {cmds : List Command} {k : TimerKind} {d : BitVec 24} :
    { kind := k, delayUs := d } ∈ armings cmds ↔ .armTimer k d ∈ cmds := by
  rw [armings, List.mem_filterMap]
  refine ⟨?_, fun h => ⟨_, h, rfl⟩⟩
  rintro ⟨cmd, hmem, hslot⟩
  cases cmd with
  | armTimer k' d' => cases hslot; exact hmem
  | startRx | flushRx | disableRx | waitHigh | startTx | pullFrame | frameSent | dispatch | abort => cases hslot

/-- A list that asks for a slot has a command of the code of `ARM_TIMER`. -/
theorem armings_eq_nil_of_count {cmds : List Command} (h : (cmds.map Command.code).count 0x6 = 0) :
    armings cmds = [] := by
  refine List.eq_nil_iff_forall_not_mem.mpr fun x hx => List.count_eq_zero.mp h ?_
  exact List.mem_map.mpr ⟨_, mem_armings.mp hx, rfl⟩

/-- Everything an event can do to the timer slot, with the slots its commands ask for (R201). -/
inductive SlotChange (cmds : List Command) (before after : Timer) : Prop
  /-- No slot is asked for, and the slot is as before. -/
  | kept (hnone : armings cmds = []) (hslot : after = before)
  /-- One slot is asked for: the one held after, in which a continuation is armed. -/
  | armed (hkind : after.kind ≠ .none) (hone : armings cmds = [after])

theorem armedAfter_kind_ne_none (c : Config) (f : Status) (rnd : Byte) : (armedAfter c f rnd).kind ≠ .none := by
  rw [armedAfter_kind]
  split <;> decide

/-- The slot a retime leaves, and its commands (R160). -/
theorem SlotChange.of_retime (c : Config) (f : Status) (rnd : Byte) (before : Timer) :
    SlotChange (retimeCommands c f rnd) before (if f.rxActive then before else armedAfter c f rnd) := by
  unfold retimeCommands
  split
  · exact .kept rfl rfl
  · exact .armed (armedAfter_kind_ne_none c f rnd) rfl

/-- The slot the abandon path leaves, and its commands (R104). -/
theorem SlotChange.of_rxTimeout (c : Config) (f : Status) (rnd : Byte) (before : Timer) :
    SlotChange (rxTimeoutCommands c f rnd) before (armedAfter c { f with rxActive := false } rnd) :=
  .armed (armedAfter_kind_ne_none c _ rnd) rfl

/-- A command that is no request says nothing of the slot. -/
theorem SlotChange.cons {cmd : Command} {cmds : List Command} {before after : Timer} (hcmd : requestedSlot cmd = none)
    (h : SlotChange cmds before after) : SlotChange (cmd :: cmds) before after := by
  have hsame : armings (cmd :: cmds) = armings cmds := List.filterMap_cons_none hcmd
  cases h with
  | kept hnone hslot => exact .kept (hsame.trans hnone) hslot
  | armed hkind hone => exact .armed hkind (hsame.trans hone)

theorem Verdict.armings_commands (v : Verdict) : armings v.commands = [] := by
  cases v <;> rfl

section slot
variable (c : Config) (rnd : Byte) (s : State)

theorem pktReadyEffect_slotChange :
    SlotChange (commandsOf c (.pktReady rnd) s) s.timer (pktReadyEffect c rnd s).timer := by
  cases hclear : s.status.allClear with
  | false => exact .kept (by simp [commandsOf, armings, hclear]) (by simp [hclear])
  | true =>
    rw [pktReadyEffect_idle c rnd hclear]
    exact .armed (by simp) (by simp [commandsOf, armings, hclear])

theorem fallEffect_slotChange (w : Bool) :
    SlotChange (commandsOf c (.fall w rnd) s) s.timer (fallEffect c w rnd s).timer := by
  rw [fallEffect_timer]
  refine .cons rfl (.cons rfl ?_)
  cases w with
  | true => exact .armed (by simp) rfl
  | false => exact .of_rxTimeout c s.status rnd s.timer

/-- The retime of a completed reception always arms, and the verdict asks for no slot (R131). -/
theorem rxdoneEffect_slotChange (e : Bool) (left : Byte) (dacc : Bool) :
    SlotChange (commandsOf c (.rxdone e left dacc rnd) s) s.timer (rxdoneEffect c e left dacc rnd s).timer := by
  rw [rxdoneEffect_timer]
  refine .armed (armedAfter_kind_ne_none c _ rnd) ?_
  exact congrArg _ (Verdict.armings_commands _)

theorem hdrCheck_slotChange : SlotChange (hdrCheckCommands c rnd s) s.timer (hdrCheck c rnd s).timer := by
  rcases hdrCheck_cases c rnd s with ⟨hrx, h⟩ | ⟨hrx, hp, h⟩ | ⟨hrx, hp, h⟩ <;> rw [h]
  · exact .kept (by simp [hdrCheckCommands, armings, hrx]) rfl
  · exact .armed (by simp) (by simp [hdrCheckCommands, armings, List.filterMap_cons, hrx, hp])
  · have hcmds : hdrCheckCommands c rnd s = .flushRx :: rxTimeoutCommands c s.status rnd := by
      simp [hdrCheckCommands, hrx, hp]
    rw [hcmds, State.rxTimeout_timer]
    exact .cons rfl (.of_rxTimeout c s.status rnd s.timer)

theorem frameTimeout_slotChange :
    SlotChange (if !s.status.rxActive then [] else rxTimeoutCommands c s.status rnd) s.timer
      (frameTimeout c rnd s).timer := by
  rcases frameTimeout_cases c rnd s with ⟨hrx, h⟩ | ⟨hrx, h⟩ <;> rw [h, hrx]
  · exact .kept rfl rfl
  · rw [State.rxTimeout_timer]
    exact .of_rxTimeout c s.status rnd s.timer

/-- A transmission that starts arms nothing; a lost start race arms the flush (R172, R173). -/
theorem startTransmit_slotChange (stx : Bool) (hrx : s.status.rxActive = false) :
    SlotChange (startCommands c stx rnd s.txf) s.timer (startTransmit c stx rnd s).timer := by
  cases stx with
  | true => exact .kept rfl rfl
  | false =>
    rw [startTransmit_lost c rnd hrx]
    exact .armed (by simp) rfl

theorem flush_slotChange (pull stx : Bool) (fsize handle : Byte) :
    SlotChange (flushCommands c pull stx fsize handle rnd s) s.timer
      (flush c pull stx fsize handle rnd s).timer := by
  unfold flushCommands
  rcases flush_cases c pull stx fsize handle rnd s with
    ⟨hbusy, h⟩ | ⟨hrx, htx, hframe, h⟩ | ⟨hrx, htx, hvalid, rfl, h⟩ <;> rw [h]
  · exact .kept (by rw [if_pos hbusy]; rfl) rfl
  · rw [if_neg (by simp [hrx, htx]), if_pos (by simpa using hframe)]
    have hstart := startTransmit_slotChange c rnd (s.claimFrame fsize handle) stx rfl
    unfold State.pullCommands
    split
    · exact hstart
    · exact hstart.cons rfl
  · exact .armed (by simp) (by simp [armings, List.filterMap_cons, hrx, htx, hvalid])

/-- A continuation runs on the slot the fire emptied (R200, R202). -/
theorem fireEffect_slotChange (pull stx : Bool) (fsize handle : Byte) :
    SlotChange (fireCommands c pull stx fsize handle rnd s) { kind := .none, delayUs := 0 }
      (fireEffect c s.timer.kind pull stx fsize handle rnd s).timer := by
  unfold fireCommands
  cases s.timer.kind with
  | none => exact .kept rfl rfl
  | hdrCheck => exact hdrCheck_slotChange c rnd s.emptyTimer
  | frameTimeout => exact frameTimeout_slotChange c rnd s.emptyTimer
  | flush => exact flush_slotChange c rnd s.emptyTimer pull stx fsize handle
  | tick => simpa [fireEffect] using SlotChange.of_retime c s.status rnd { kind := .none, delayUs := 0 }

/-- The slot an event's effect starts from: a fire empties it first (R202). -/
def slotAtStart (i : Instr) (slot : Timer) : Timer :=
  match i with
  | .fire .. => { kind := .none, delayUs := 0 }
  | .init _ | .pktReady _ | .fall _ _ | .rxb _ _ | .rxdone .. | .txdone _ | .rd _ => slot

/-- What any event that is performed does to the slot, and asks for (R201). -/
theorem effectOf_slotChange (i : Instr) :
    SlotChange (commandsOf c i s) (slotAtStart i s.timer) (effectOf c i s).timer := by
  cases i with
  | init rnd => simpa [effectOf, commandsOf, slotAtStart] using SlotChange.of_retime c s.status rnd s.timer
  | pktReady rnd => exact pktReadyEffect_slotChange c rnd s
  | fall w rnd => exact fallEffect_slotChange c rnd s w
  | rxdone e left dacc rnd => exact rxdoneEffect_slotChange c rnd s e left dacc
  | txdone rnd =>
    rw [effectOf, txdoneEffect_timer]
    exact .cons rfl (.of_retime c { s.status with txActive := false } rnd s.timer)
  | fire pull stx fsize handle rnd => exact fireEffect_slotChange c rnd s pull stx fsize handle
  | rxb | rd => exact .kept rfl rfl

/-- A performed event that emits no `ARM_TIMER` leaves the slot it started from. -/
theorem effectOf_timer_of_count (i : Instr) (h : (effectOf c i s.beginEvent).commandCount 0x6 = 0) :
    (effectOf c i s.beginEvent).timer = slotAtStart i s.timer := by
  have hout := effectOf_out c s.beginEvent i
  rw [State.beginEvent_out, List.nil_append] at hout
  rw [State.commandCount_of_out hout] at h
  cases effectOf_slotChange c s.beginEvent i with
  | kept _ hslot => exact hslot
  | armed _ hone => exact absurd ((armings_eq_nil_of_count h).symm.trans hone) (by simp)

end slot

/-- Settles O36: a request is one of a performed event's commands (`eventOf_emits`), which agree with the slot
(`effectOf_slotChange`); with none, the slot is the one the event started from, and only a fire empties it. -/
theorem armTimerIsTheSlot : Obligations.ArmTimerIsTheSlot := by
  intro c i s t h
  refine ⟨fun k d hmem => ?arms, fun hcount => ?armsNothing⟩
  case arms =>
    obtain ⟨cause, habort⟩ | ⟨hcmd, rfl⟩ := eventOf_emits h hmem
    · cases habort
    rw [← commandsOf_beginEvent, ← mem_armings] at hcmd
    cases effectOf_slotChange c s.beginEvent i with
    | kept hnone _ => simp [hnone] at hcmd
    | armed hkind hone =>
      rw [hone, List.mem_singleton] at hcmd
      rw [← hcmd] at hkind ⊢
      exact ⟨hkind, rfl⟩
  case armsNothing =>
    obtain ⟨-, ⟨cause, -, rfl⟩ | ⟨-, rfl⟩⟩ := eventOf_next h
    · exact .inl rfl
    have hslot := effectOf_timer_of_count c s i hcount
    cases i with
    | fire pull stx fsize handle rnd => exact .inr ⟨⟨pull, stx, fsize, handle, rnd, rfl⟩, hslot⟩
    | init | pktReady | fall | rxb | rxdone | txdone | rd => exact .inl hslot

/-- A fire of a running block with nothing armed is refused, and nothing else changes (R200, R235). -/
theorem exec_fire_of_kind_none {s : State} (pull stx : Bool) (fsize handle rnd : Byte) (hs : Running s)
    (hk : s.timer.kind = .none) : exec (.fire pull stx fsize handle rnd) s =
      .next { s with fault := .envSpuriousTimer, halted := true, out := [], rdata := none } :=
  exec_stops hs.1 (by simp [firstCause, hs.2, hk])

/-- Settles O29: a fire with nothing armed is refused (`exec_fire_of_kind_none`), and one that arms nothing leaves the
slot empty (`effectOf_timer_of_count`) in a block that still runs. -/
theorem fireConsumesTheSlot : Obligations.FireConsumesTheSlot := by
  intro pull stx fsize handle rnd s hs
  refine ⟨exec_fire_of_kind_none pull stx fsize handle rnd hs, fun t h hlive hcount => ?_⟩
  obtain ⟨-, ⟨cause, -, rfl⟩ | ⟨-, rfl⟩⟩ := eventOf_next ((exec_eq_eventOf _ s).symm.trans h)
  · cases hlive
  have hslot := effectOf_timer_of_count defaultConfig s _ hcount
  have hrunning : Running _ := ⟨hlive, by simpa [effectOf] using hs.2⟩
  refine ⟨hslot, fun pull' stx' fsize' handle' rnd' => ?_⟩
  exact exec_fire_of_kind_none pull' stx' fsize' handle' rnd' hrunning (by rw [hslot]; rfl)

end Sys2Proof.Machine
end

section
/-! PROOFS. The diagnostics recorder (spec/10_state.md R26; spec/43_tick_control_diag.md R220, R221): who counts, and
that nothing but the read port shows a counter. -/

namespace Sys2Proof.Machine

/-! ### Who counts -/

/-- Everything an event can do to the recorder (R220). -/
inductive DiagChange (c : Config) (s : State) : Instr → Diag → Prop
  /-- The event leaves the recorder. -/
  | kept (i : Instr) : DiagChange c s i s.diag
  /-- R173. -/
  | startLost (pull : Bool) (fsize handle rnd : Byte) (hkind : s.timer.kind = .flush) :
    DiagChange c s (.fire pull false fsize handle rnd) { s.diag with loError := inc c s.diag.loError }
  /-- R104, by an edge whose line stayed low (R100). -/
  | lineLow (rnd : Byte) : DiagChange c s (.fall false rnd) { s.diag with timeoutError := inc c s.diag.timeoutError }
  /-- R104, by the header check (R112) or the frame timeout (R114). -/
  | abandoned (pull stx : Bool) (fsize handle rnd : Byte)
      (hcause : s.timer.kind = .hdrCheck ∧ (∀ a < c.probeBytes, s.rxbuf.read a = 0) ∨ s.timer.kind = .frameTimeout) :
    DiagChange c s (.fire pull stx fsize handle rnd) { s.diag with timeoutError := inc c s.diag.timeoutError }
  /-- R132 to R139. -/
  | settled (e : Bool) (left : Byte) (dacc : Bool) (rnd : Byte) :
    DiagChange c s (.rxdone e left dacc rnd) ((verdict c e left s.rxbuf).settledDiag c dacc s.diag)

/-- The flush counts a lost start race, and nothing else (R173). -/
theorem flush_diag (c : Config) (pull stx : Bool) (fsize handle rnd : Byte) (s : State) :
    (flush c pull stx fsize handle rnd s).diag = s.diag ∨
    stx = false ∧ (flush c pull stx fsize handle rnd s).diag = { s.diag with loError := inc c s.diag.loError } := by
  rcases flush_cases c pull stx fsize handle rnd s with ⟨-, h⟩ | ⟨-, -, -, h⟩ | ⟨-, -, -, -, h⟩ <;> rw [h]
  · exact .inl rfl
  · cases stx with
    | true => exact .inl rfl
    | false => exact .inr ⟨rfl, by rw [startTransmit_lost c rnd rfl]; rfl⟩
  · exact .inl rfl

/-- What a fire that is performed counts, by the continuation it runs. -/
theorem fireEffect_diagChange (c : Config) (pull stx : Bool) (fsize handle rnd : Byte) (s : State) :
    DiagChange c s (.fire pull stx fsize handle rnd)
      (fireEffect c s.timer.kind pull stx fsize handle rnd s.beginEvent).diag := by
  cases hk : s.timer.kind with
  | none => exact .kept _
  | tick => simpa [fireEffect] using DiagChange.kept (.fire pull stx fsize handle rnd)
  | hdrCheck =>
    rw [fireEffect]
    rcases hdrCheck_cases c rnd s.beginEvent.emptyTimer with ⟨-, h⟩ | ⟨-, -, h⟩ | ⟨-, hp, h⟩ <;> rw [h]
    · exact .kept _
    · exact .kept _
    · rw [State.rxTimeout_diag]
      exact .abandoned pull stx fsize handle rnd (.inl ⟨hk, read_eq_zero_of_not_headerPresent hp⟩)
  | frameTimeout =>
    rw [fireEffect]
    rcases frameTimeout_cases c rnd s.beginEvent.emptyTimer with ⟨-, h⟩ | ⟨-, h⟩ <;> rw [h]
    · exact .kept _
    · rw [State.rxTimeout_diag]
      exact .abandoned pull stx fsize handle rnd (.inr hk)
  | flush =>
    rw [fireEffect]
    rcases flush_diag c pull stx fsize handle rnd s.beginEvent.emptyTimer with h | ⟨rfl, h⟩ <;> rw [h]
    · exact .kept _
    · exact .startLost pull fsize handle rnd hk

/-- What any event that is performed counts. -/
theorem effectOf_diagChange (c : Config) (i : Instr) (s : State) :
    DiagChange c s i (effectOf c i s.beginEvent).diag := by
  cases i with
  | fall w rnd =>
    cases w with
    | true => exact .kept _
    | false =>
      rw [effectOf, fallEffect, if_neg (by simp), State.rxTimeout_diag]
      exact .lineLow rnd
  | rxdone e left dacc rnd =>
    rw [effectOf, rxdoneEffect_eq]
    exact .settled e left dacc rnd
  | fire pull stx fsize handle rnd => exact fireEffect_diagChange c pull stx fsize handle rnd s
  | init | pktReady | rxb | txdone | rd => simpa [effectOf] using DiagChange.kept _

/-- What any event counts: a stop counts nothing (R13). -/
theorem eventOf_diagChange {c : Config} {i : Instr} {s t : State} (h : eventOf c i s = .next t) :
    DiagChange c s i t.diag := by
  obtain ⟨-, ⟨cause, -, rfl⟩ | ⟨-, rfl⟩⟩ := eventOf_next h
  · exact .kept i
  · exact effectOf_diagChange c i s

/-- Settles O42: each change of a counter is one of `DiagChange`, whose case names the event, and adds one
(`toNat_inc`). -/
theorem countersCountWhatTheTableSays : Obligations.CountersCountWhatTheTableSays := by
  refine ⟨toNat_inc, fun c i s t h => ?_⟩
  have hchange := eventOf_diagChange h
  generalize t.diag = d at hchange ⊢
  cases hchange with
  | kept => simp
  | startLost pull fsize handle rnd hkind => simp [toNat_inc, hkind]
  | lineLow rnd => simp [toNat_inc]
  | abandoned pull stx fsize handle rnd hcause =>
    exact ⟨rfl, .inl rfl, .inr ⟨toNat_inc c _, .inr ⟨pull, stx, fsize, handle, rnd, rfl, hcause⟩⟩, .inl rfl, .inl rfl,
      .inl rfl⟩
  | settled e left dacc rnd =>
    cases hverdict : verdict c e left s.rxbuf with
    | silent => exact ⟨rfl, .inl rfl, .inl rfl, .inl rfl, .inl rfl, .inl rfl⟩
    | frameError =>
      exact ⟨rfl, .inl rfl, .inl rfl, .inr ⟨toNat_inc c _, e, left, dacc, rnd, rfl, hverdict⟩, .inl rfl, .inl rfl⟩
    | nextGenDrop =>
      exact ⟨rfl, .inl rfl, .inl rfl, .inl rfl, .inl rfl, .inr ⟨toNat_inc c _, e, left, dacc, rnd, rfl, .inl hverdict⟩⟩
    | forward decl =>
      obtain ⟨-, rfl⟩ := verdict_eq_forward_iff.mp hverdict
      have hreceived : ∃ e' left' dacc' rnd', Instr.rxdone e left dacc rnd = .rxdone e' left' dacc' rnd' ∧
          verdict c e' left' s.rxbuf = .forward (declaredSize c s.rxbuf) := ⟨e, left, dacc, rnd, rfl, hverdict⟩
      cases dacc with
      | true => exact ⟨rfl, .inl rfl, .inl rfl, .inl rfl, .inr ⟨toNat_inc c _, hreceived⟩, .inl rfl⟩
      | false =>
        exact ⟨rfl, .inl rfl, .inl rfl, .inl rfl, .inr ⟨toNat_inc c _, hreceived⟩,
          .inr ⟨toNat_inc c _, e, left, false, rnd, rfl, .inr ⟨rfl, hverdict⟩⟩⟩

/-! ### What shows a counter -/

/-- The state with another recorder. -/
abbrev State.withDiag (s : State) (d : Diag) : State := { s with diag := d }

/-- What of a state does not show the counters. -/
abbrev State.hideCounters (s : State) : State := { s with diag := Diag.reset, rdata := none }

section noninterference
variable (c : Config) (rnd : Byte) (s : State) (d : Diag)

/-- A retime hands the recorder through. -/
theorem State.retime_withDiag (mask : ClearMask) :
    (s.withDiag d).retime c mask rnd = (s.retime c mask rnd).withDiag d := by
  rcases s.retime_cases c mask rnd with ⟨hrx, h⟩ | ⟨hrx, hpending, h⟩ | ⟨hrx, hidle, h⟩ <;> rw [h]
  · exact State.retime_receiving (s.withDiag d) c mask rnd hrx
  · exact State.retime_pending (s.withDiag d) c mask rnd hrx hpending
  · exact State.retime_idle (s.withDiag d) c mask rnd hrx hidle

theorem State.retime_hideCounters (mask : ClearMask) :
    ((s.withDiag d).retime c mask rnd).hideCounters = (s.retime c mask rnd).hideCounters := by
  rw [State.retime_withDiag]

theorem State.rxTimeout_hideCounters :
    ((s.withDiag d).rxTimeout c rnd).hideCounters = (s.rxTimeout c rnd).hideCounters := by
  rw [State.rxTimeout_eq, State.rxTimeout_eq]

theorem pktReadyEffect_hideCounters :
    (pktReadyEffect c rnd (s.withDiag d)).hideCounters = (pktReadyEffect c rnd s).hideCounters := by
  cases hclear : s.status.allClear with
  | false => rw [pktReadyEffect_busy c rnd hclear, pktReadyEffect_busy c rnd (s := s.withDiag d) hclear]
  | true => rw [pktReadyEffect_idle c rnd hclear, pktReadyEffect_idle c rnd (s := s.withDiag d) hclear]

theorem fallEffect_hideCounters (w : Bool) :
    (fallEffect c w rnd (s.withDiag d)).hideCounters = (fallEffect c w rnd s).hideCounters := by
  cases w with
  | true => rfl
  | false =>
    simp only [fallEffect, if_neg Bool.false_ne_true, State.rxTimeout_eq]
    rfl

theorem hdrCheck_hideCounters :
    (hdrCheck c rnd (s.withDiag d)).hideCounters = (hdrCheck c rnd s).hideCounters := by
  rcases hdrCheck_cases c rnd s with ⟨hrx, h⟩ | ⟨hrx, hp, h⟩ | ⟨hrx, hp, h⟩ <;> rw [h]
  · rw [hdrCheck_not_receiving c rnd (s.withDiag d) hrx]
  · rw [hdrCheck_present c rnd (s.withDiag d) hrx hp]
    rfl
  · rw [hdrCheck_absent c rnd (s.withDiag d) hrx hp]
    exact State.rxTimeout_hideCounters c rnd (s.emit .flushRx) d

theorem frameTimeout_hideCounters :
    (frameTimeout c rnd (s.withDiag d)).hideCounters = (frameTimeout c rnd s).hideCounters := by
  rcases frameTimeout_cases c rnd s with ⟨hrx, h⟩ | ⟨hrx, h⟩ <;> rw [h]
  · rw [frameTimeout_not_receiving c rnd (s.withDiag d) hrx]
  · rw [frameTimeout_receiving c rnd (s.withDiag d) hrx, State.rxTimeout_hideCounters]

theorem startTransmit_hideCounters (stx : Bool) (hrx : s.status.rxActive = false) :
    (startTransmit c stx rnd (s.withDiag d)).hideCounters = (startTransmit c stx rnd s).hideCounters := by
  cases stx with
  | true => rfl
  | false => rw [startTransmit_lost c rnd hrx, startTransmit_lost c rnd (s := s.withDiag d) hrx]

theorem flush_hideCounters (pull stx : Bool) (fsize handle : Byte) :
    (flush c pull stx fsize handle rnd (s.withDiag d)).hideCounters =
      (flush c pull stx fsize handle rnd s).hideCounters := by
  rcases flush_cases c pull stx fsize handle rnd s with
    ⟨hbusy, h⟩ | ⟨hrx, htx, hframe, h⟩ | ⟨hrx, htx, hvalid, rfl, h⟩ <;> rw [h]
  · rw [flush_busy c rnd (s.withDiag d) pull stx fsize handle hbusy]
  · rw [flush_of_frame c pull stx fsize handle rnd (s := s.withDiag d) hrx htx hframe]
    exact startTransmit_hideCounters c rnd (s.claimFrame fsize handle) d stx rfl
  · rw [flush_of_no_frame c stx fsize handle rnd (s := s.withDiag d) hrx htx hvalid]

theorem fireEffect_hideCounters (kind : TimerKind) (pull stx : Bool) (fsize handle : Byte) :
    (fireEffect c kind pull stx fsize handle rnd (s.withDiag d)).hideCounters =
      (fireEffect c kind pull stx fsize handle rnd s).hideCounters := by
  cases kind with
  | none => rfl
  | hdrCheck => exact hdrCheck_hideCounters c rnd s.emptyTimer d
  | frameTimeout => exact frameTimeout_hideCounters c rnd s.emptyTimer d
  | flush => exact flush_hideCounters c rnd s.emptyTimer d pull stx fsize handle
  | tick => exact State.retime_hideCounters c rnd s.emptyTimer d .nothing

/-- What any event that is performed does, up to the recorder and the read value, is the same for any recorder. -/
theorem effectOf_hideCounters (i : Instr) :
    (effectOf c i (s.withDiag d)).hideCounters = (effectOf c i s).hideCounters := by
  cases i with
  | init rnd => exact State.retime_hideCounters c rnd { s with running := true } d .nothing
  | pktReady rnd => exact pktReadyEffect_hideCounters c rnd s d
  | fall w rnd => exact fallEffect_hideCounters c rnd s d w
  | rxdone e left dacc rnd => rw [effectOf, effectOf, rxdoneEffect_eq, rxdoneEffect_eq]
  | txdone rnd =>
    exact State.retime_hideCounters c rnd
      { s.emit (.frameSent s.txf.handle) with txf := { valid := false, handle := 0, size := 0 } } d .txActive
  | fire pull stx fsize handle rnd => exact fireEffect_hideCounters c rnd s d s.timer.kind pull stx fsize handle
  | rxb | rd => rfl

/-- No check of R238 reads the recorder. -/
theorem firstCause_withDiag (i : Instr) : firstCause c i (s.withDiag d) = firstCause c i s := by
  cases i <;> rfl

end noninterference

/-- Settles O43: no check reads the recorder (`firstCause_withDiag`), a stop hands it through, and an effect does the
same for any (`effectOf_hideCounters`). -/
theorem countersDecideNothing : Obligations.CountersDecideNothing := by
  intro c i s d
  change forgetCounters (eventOf c i (s.withDiag d)) = _
  cases hhalted : s.halted with
  | true => rw [eventOf_halted c i hhalted, eventOf_halted c i (s := s.withDiag d) hhalted]
  | false =>
    rw [eventOf_live c i hhalted, eventOf_live c i (s := s.withDiag d) hhalted, firstCause_withDiag]
    cases firstCause c i s with
    | none => exact congrArg Host.Outcome.next (effectOf_hideCounters c s.beginEvent d i)
    | some cause => rfl

end Sys2Proof.Machine
end

section
/-! PROOFS. The exceptions (spec/60_exceptions.md): the halt, the order of the checks, who emits `ABORT`, and that in the
invariant only a breach of the environment contract stops the block (R231 to R238). -/

namespace Sys2Proof.Machine

/-! ### The halt and the order of the checks -/

/-- Settles O12: `step` checks `HALTED` before it takes a word (`takeNext_halted`), and so does every event
(`eventOf_halted`). -/
theorem haltedBlockTakesNothing : Obligations.HaltedBlockTakesNothing :=
  fun _ hhalted => ⟨takeNext_halted exec hhalted, fun i => (exec_eq_eventOf i _).trans (eventOf_halted _ i hhalted)⟩

/-- The output of a stop, as words (R231, R235). -/
theorem map_word_stopCommands (cause : StopCause) :
    (stopCommands cause).map Command.word = if isFatal cause then [(Command.abort cause).word] else [] := by
  rw [stopCommands, apply_ite (List.map Command.word)]
  rfl

/-- Of what an event answers, `HALTED` tells whether it found a cause: only a stop writes it (R30, R238). -/
theorem eventOf_halted_eq {c : Config} {i : Instr} {s t : State} (h : eventOf c i s = .next t) :
    t.halted = (firstCause c i s).isSome := by
  obtain ⟨hlive, ⟨cause, hcause, rfl⟩ | ⟨hnone, rfl⟩⟩ := eventOf_next h
  · rw [hcause, State.stopped_halted, Option.isSome_some]
  · rw [hnone, (effectOf_stopFields c i _).1, State.beginEvent_halted, hlive, Option.isSome_none]

/-- Settles O14: checks 1 and 2 of R238 stand in `takeNext`, before and at the decoder; checks 3 to 6 are `firstCause`, with
which the event stops the block (`exec_stops`) or without which it is performed (`exec_performs`). -/
theorem checksComeInOrder : Obligations.ChecksComeInOrder := by
  refine ⟨fun s => ?halted, fun s w rest => ?illegal, fun i s cause hlive hcause => ?stops,
    fun i s hlive hnone => ?performs⟩
  case halted => exact takeNext_halted exec
  case illegal => exact takeNext_of_decode_eq_none exec
  case stops => rw [exec_stops hlive hcause, State.stopped, map_word_stopCommands]
  case performs =>
    obtain ⟨hhalted, hfault⟩ := effectOf_stopFields defaultConfig i s.beginEvent
    exact ⟨_, exec_performs hlive hnone, hhalted.trans hlive, hfault⟩

/-! ### Who emits `ABORT` -/

section abort
variable (c : Config) (pull stx : Bool) (fsize handle rnd : Byte) (s : State)

theorem hdrCheckCommands_no_abort : 0xA ∉ (hdrCheckCommands c rnd s).map Command.code := by
  simp only [hdrCheckCommands, rxTimeoutCommands]
  split_ifs <;> simp

theorem flushCommands_no_abort : 0xA ∉ (flushCommands c pull stx fsize handle rnd s).map Command.code := by
  simp only [flushCommands, State.pullCommands, startCommands]
  split_ifs <;> simp

theorem fireCommands_no_abort : 0xA ∉ (fireCommands c pull stx fsize handle rnd s).map Command.code := by
  simp only [fireCommands]
  cases s.timer.kind with
  | none => exact List.not_mem_nil
  | hdrCheck => exact hdrCheckCommands_no_abort c rnd s
  | frameTimeout => simp only [rxTimeoutCommands]; split <;> simp
  | flush => exact flushCommands_no_abort c pull stx fsize handle rnd s
  | tick => rw [retimeCommands_codes]; split <;> simp

/-- No event that is performed emits `ABORT`: it is a command of a fatal stop alone (R231). -/
theorem commandsOf_no_abort (i : Instr) : 0xA ∉ (commandsOf c i s).map Command.code := by
  cases i with
  | init rnd => rw [commandsOf, retimeCommands_codes]; split <;> simp
  | pktReady rnd => simp only [commandsOf]; split <;> simp
  | fall w rnd => cases w <;> simp [commandsOf, rxTimeoutCommands]
  | rxb | rd => exact List.not_mem_nil
  | rxdone e left dacc rnd =>
    rcases (verdict c e left s.rxbuf).commands_codes with h | h <;> simp [commandsOf, h]
  | txdone rnd => rw [commandsOf, List.map_cons, retimeCommands_codes]; split <;> simp
  | fire pull stx fsize handle rnd => exact fireCommands_no_abort c pull stx fsize handle rnd s

end abort

/-- A stop emits one `ABORT` if its cause is fatal, and none otherwise (R231, R235). -/
theorem count_abort_stopCommands (cause : StopCause) :
    ((stopCommands cause).map Command.code).count 0xA = if isFatal cause then 1 else 0 := by
  unfold stopCommands
  split <;> simp

/-- Settles O16: an event's whole output is that of its stop (`count_abort_stopCommands`) or that of its effect, which has no
`ABORT` (`commandsOf_no_abort`). -/
theorem abortExactlyOnFatal : Obligations.AbortExactlyOnFatal := by
  intro c i s t h
  rw [State.commandCount_of_out (eventOf_out h)]
  cases firstCause c i s with
  | none => simpa using List.count_eq_zero.mpr (commandsOf_no_abort c s i)
  | some cause => simpa using count_abort_stopCommands cause

/-! ### Only a breach of the contract stops the block -/

/-- No idle tick is armed during a transmission (R41 items 4 and 5), so `Fatal(2)` cannot be raised (R232). -/
theorem Inv.not_transmitting_of_tick {c : Config} {s : State} (h : Inv c s) (hk : s.timer.kind = .tick) :
    s.status.txActive = false := by
  obtain ⟨hcontrol, -⟩ := (inv_iff c s).mp h
  exact (hcontrol.inactive_of_scheduled (.inr hk)).2

/-- In the invariant the checks of an event are the visible contract: every check but that of the idle tick is an item of
it, and the idle tick's cannot fail (`Inv.not_transmitting_of_tick`). -/
theorem Inv.isSome_firstCause {c : Config} {s : State} (h : Inv c s) (i : Instr) :
    (firstCause c i s).isSome = !keepsContract c i s := by
  cases i with
  | rd addr => rfl
  | init | pktReady | fall | rxb | rxdone | txdone =>
    simp only [firstCause, keepsContract]
    split_ifs <;> simp_all
  | fire pull stx fsize handle rnd =>
    have htick : (decide (s.timer.kind = .tick) && s.status.txActive) = false := by
      simpa using h.not_transmitting_of_tick
    simp only [firstCause, keepsContract, htick, Bool.false_eq_true, if_false]
    split_ifs <;> simp_all

/-- Settles O50: a live block answers every event (`eventOf_answers`), halts exactly with a cause (`eventOf_halted_eq`), and
in the invariant has a cause exactly when the contract is broken (`Inv.isSome_firstCause`). -/
theorem onlyBreachesStopTheBlock : Obligations.OnlyBreachesStopTheBlock := by
  intro c i s hinv hlive
  obtain ⟨t, ht⟩ := eventOf_answers c i hlive
  refine ⟨t, ht, ?_⟩
  rw [eventOf_halted_eq ht, hinv.isSome_firstCause i, Bool.not_eq_false']

end Sys2Proof.Machine
end

section
/-! PROOFS. Reset (spec/70_reset_and_hazards.md R260). -/

namespace Sys2Proof.Machine

/-- What reset leaves in `RXBUF` is the buffer a line edge leaves there (R102), so it reads 0 at every address. -/
theorem reset_rxbuf_read (a : Nat) : State.reset.rxbuf.read a = 0 := Memory.read_zeroed a

/-- Settles O1: the elements of fixed size and the ports are values of the record `State.reset`; the buffer, at every
address, is `reset_rxbuf_read`, and that no step leaves a halt is `takeNext_halted`. -/
theorem resetLeavesEveryElementZero : Obligations.ResetLeavesEveryElementZero := by
  have hflags : State.reset.status.bits = 0#3 := by decide
  have hhalt (s : State) (h : s.halted = true) : step s = .fault .halted := takeNext_halted exec h
  exact ⟨hflags, rfl, rfl, reset_rxbuf_read, rfl, rfl, rfl, rfl, rfl, rfl, rfl, rfl, rfl, rfl, rfl, hhalt⟩

end Sys2Proof.Machine
end

section
/-! PROOFS. The fire of the idle tick (spec/43_tick_control_diag.md R205). -/

namespace Sys2Proof.Machine

/-- The fire of the idle tick outside a transmission empties the slot and runs one retime (R200, R202, R205). -/
theorem eventOf_fire_tick (c : Config) (pull stx : Bool) (fsize handle rnd : Byte) {s : State} (hs : Running s)
    (hk : s.timer.kind = .tick) (htx : s.status.txActive = false) :
    eventOf c (.fire pull stx fsize handle rnd) s = .next (s.beginEvent.emptyTimer.retime c .nothing rnd) := by
  rw [eventOf_performs hs.1 (by simp [firstCause, hs.2, hk, htx]), effectOf, State.beginEvent_timer, hk, fireEffect]

/-- Settles O28: during a transmission the fire finds its cause before it touches the slot (`exec_stops`); else it is a retime
that clears no flag (`eventOf_fire_tick`), which waits for a reception or arms the timer again. -/
theorem tickFire : Obligations.TickFire := by
  intro pull stx fsize handle rnd s hs hk
  refine ⟨fun htx => ?transmitting, fun htx hrx => ?receiving, fun htx hrx => ?notReceiving⟩
  case transmitting => exact exec_stops hs.1 (by simp [firstCause, hs.2, hk, htx])
  all_goals rw [exec_eq_eventOf, eventOf_fire_tick defaultConfig pull stx fsize handle rnd hs hk htx]
  case receiving =>
    rw [State.retime_receiving _ _ _ _ (by simpa using hrx), State.clearFlags, Status.clear_nothing_mask]
    rfl
  case notReceiving =>
    rw [State.retime_armedAfter _ _ _ _ (by simpa using hrx), Status.clear_nothing_mask]
    rfl

end Sys2Proof.Machine
end

section
/-! PROOFS. The canonical form of the receive buffer represents its bytes uniquely (spec/20_memory.md R50). -/

namespace Sys2Proof.Machine

section reads
variable {size a b : Nat} {v w : Byte} {rest rest' : Memory}

theorem Memory.read_cons_self (a : Nat) (v : Byte) (rest : Memory) : Memory.read ((a, v) :: rest) a = v := if_pos rfl

theorem Memory.read_cons_of_ne (h : b ≠ a) (v : Byte) (rest : Memory) :
    Memory.read ((a, v) :: rest) b = Memory.read rest b := if_neg h

/-- No listed address reads as an unlisted one: so it is with the first. -/
theorem Memory.read_head_ne_zero (hm : Memory.wf size ((a, v) :: rest) = true) :
    Memory.read ((a, v) :: rest) a ≠ 0 := by
  obtain ⟨-, hv, -⟩ := (Memory.wf_cons ..).mp hm
  rwa [Memory.read_cons_self]

/-- An address below the first listed one reads 0. -/
theorem Memory.read_eq_zero_of_lt_head (hm : Memory.wf size ((b, w) :: rest) = true) (h : a < b) :
    Memory.read ((b, w) :: rest) a = 0 := by
  obtain ⟨-, -, habove, -⟩ := (Memory.wf_cons ..).mp hm
  refine Memory.read_of_forall_lt _ a fun cell hcell => ?_
  rcases List.mem_cons.mp hcell with rfl | hcell
  · exact h
  · exact h.trans (habove cell hcell)

/-- Of two canonical buffers that read alike neither begins below the other: there it would read a byte that is not 0, and
the other 0. -/
theorem Memory.head_le_of_read_eq (hm : Memory.wf size ((a, v) :: rest) = true)
    (hm' : Memory.wf size ((b, w) :: rest') = true)
    (hread : ∀ x < size, Memory.read ((a, v) :: rest) x = Memory.read ((b, w) :: rest') x) : b ≤ a := by
  obtain ⟨ha, -⟩ := (Memory.wf_cons ..).mp hm
  by_contra hlt
  exact Memory.read_head_ne_zero hm ((hread a ha).trans (Memory.read_eq_zero_of_lt_head hm' (by omega)))

/-- Canonical buffers with one first address that read alike have rests that read alike: at that address both rests read
0. -/
theorem Memory.read_tail_eq (hm : Memory.wf size ((a, v) :: rest) = true) (hm' : Memory.wf size ((a, w) :: rest') = true)
    (hread : ∀ x < size, Memory.read ((a, v) :: rest) x = Memory.read ((a, w) :: rest') x) :
    ∀ x < size, Memory.read rest x = Memory.read rest' x := by
  obtain ⟨-, -, habove, -⟩ := (Memory.wf_cons ..).mp hm
  obtain ⟨-, -, habove', -⟩ := (Memory.wf_cons ..).mp hm'
  intro x hx
  by_cases hxa : x = a
  · rw [hxa, Memory.read_of_forall_lt rest a habove, Memory.read_of_forall_lt rest' a habove']
  · simpa only [Memory.read_cons_of_ne hxa] using hread x hx

/-- A canonical buffer that lists an address does not read 0 everywhere. -/
theorem Memory.not_forall_read_eq_zero (hm : Memory.wf size ((a, v) :: rest) = true) :
    ¬ ∀ x < size, Memory.read ((a, v) :: rest) x = 0 := by
  obtain ⟨ha, -⟩ := (Memory.wf_cons ..).mp hm
  exact fun hread => Memory.read_head_ne_zero hm (hread a ha)

end reads

/-- Settles O34, by induction on both lists: they begin at one address (`Memory.head_le_of_read_eq`, both ways) with one
byte, and their rests read alike (`Memory.read_tail_eq`). -/
theorem canonicalBuffersAreTheirBytes : Obligations.CanonicalBuffersAreTheirBytes := by
  intro size m
  induction m with
  | nil =>
    intro m' _ hm' hread
    cases m' with
    | nil => rfl
    | cons cell rest' => exact absurd (fun x hx => (hread x hx).symm) (Memory.not_forall_read_eq_zero hm')
  | cons cell rest ih =>
    intro m' hm hm' hread
    obtain ⟨a, v⟩ := cell
    cases m' with
    | nil => exact absurd hread (Memory.not_forall_read_eq_zero hm)
    | cons cell' rest' =>
      obtain ⟨b, w⟩ := cell'
      have hba : b ≤ a := Memory.head_le_of_read_eq hm hm' hread
      have hab : a ≤ b := Memory.head_le_of_read_eq hm' hm fun x hx => (hread x hx).symm
      obtain rfl : a = b := Nat.le_antisymm hab hba
      obtain ⟨ha, -, -, hrest⟩ := (Memory.wf_cons ..).mp hm
      obtain ⟨-, -, -, hrest'⟩ := (Memory.wf_cons ..).mp hm'
      have hvw : v = w := by simpa only [Memory.read_cons_self] using hread a ha
      rw [hvw, ih rest' hrest hrest' (Memory.read_tail_eq hm hm' hread)]

end Sys2Proof.Machine
end

section
/-! PROOFS. What `exec` and `step` rest on: the default parameters (spec/00_scope.md R8, R14), the words of the event formats
(spec/30_encoding.md R72 to R79), and the wait for an event (spec/70_reset_and_hazards.md R261). -/

namespace Sys2Proof

/-- A word that encodes an event decodes to it (R80). -/
theorem decode_eq_some_of_encode_eq {i : Instr} {w : Word} (h : encode i = w) : decode w = some i := h ▸ decode_encode i

/-- Settles O4: each word is the encoding of its event, which the decoder reads back (`decode_encode`). -/
theorem exampleWordsDecode : Obligations.ExampleWordsDecode := by
  refine ⟨?_, ?_, ?_, ?_, ?_, ?_, ?_, ?_, ?_, ?_, ?_⟩ <;> exact decode_eq_some_of_encode_eq (by decide)

end Sys2Proof

namespace Sys2Proof.Machine

/-- The check value R14 gives for the default integrity function. -/
theorem crc16Ccitt_check_value :
    crc16Ccitt [0x31, 0x32, 0x33, 0x34, 0x35, 0x36, 0x37, 0x38, 0x39] = 0x29B1 := by
  simp [crc16Ccitt, crc16Byte, crc16Bits, crc16Bit]

/-- Settles O3: the numbers are the fields of `defaultParams`, and `crc16` is `crc16Ccitt`. -/
theorem execRunsTheDefaultParameters : Obligations.ExecRunsTheDefaultParameters := by
  have hcrc : defaultConfig.crc16 = crc16Ccitt := rfl
  refine ⟨rfl, rfl, rfl, rfl, rfl, rfl, rfl, rfl, rfl, rfl, rfl, rfl, rfl, rfl, rfl, ?checkValue⟩
  case checkValue => rw [hcrc, crc16Ccitt_check_value]

/-- A live block that is offered no event waits for one, whatever its events do (R261). -/
theorem takeNext_of_no_event (run : Instr → State → Result) {s : State} (hlive : Live s) (hevents : s.events = []) :
    takeNext run s = .next s := by
  simp [takeNext, hlive, hevents]

/-- Settles O13: a step takes the next event, and there is none (`takeNext_of_no_event`). -/
theorem noEventNoChange : Obligations.NoEventNoChange := fun _ => takeNext_of_no_event exec

end Sys2Proof.Machine
end
